-- ==== Sys2Proof/Word.lean ====
section
/-! DEFINITION. The word types of the KNOT core (spec/00_scope.md R5, R8): unsigned values of fixed widths. -/

namespace Sys2Proof

/-- A buffer element, a digest byte, the small operand `a`, a character code (R5 `EW`, R70). -/
abbrev Byte := BitVec 8

/-- A length-list entry, the wide operand `imm`, a round count (R5 `LENW`, `RW`, R70). -/
abbrev Half := BitVec 16

/-- A command word or the data of a response (R5 `CMDW`, `RSPW`). -/
abbrev Word := BitVec 32

end Sys2Proof
end

