-- ==== Sys2Proof/Syntax.lean ====
section
/-! DEFINITION. The commands of the KNOT core, one constructor per row of spec/opcode_table.json (spec/30_encoding.md
R71, R73), the fields of a command word (R70), and the lines of the spec's assembly notation (R80, R85). -/

namespace Sys2Proof

/-- A command with its operands. Every operand is the whole field, unsigned (R72): `a` is 8 bits wide, `imm` 16. -/
inductive Instr where
  /-- `NOP` (R140). -/
  | nop
  /-- `INIT n` (R141): `n` is the buffer size. -/
  | init (n : Half)
  /-- `RDSR s` (R142): `s` is the register number. -/
  | rdsr (s : Byte)
  /-- `REV c, l` (R93): start position and length. -/
  | rev (c : Byte) (l : Half)
  /-- `RDBUF i` (R94): buffer index. -/
  | rdbuf (i : Byte)
  /-- `LCLR` (R100). -/
  | lclr
  /-- `LPUSH l` (R101): the length to append. -/
  | lpush (l : Half)
  /-- `RDLL j` (R102): list index. -/
  | rdll (j : Half)
  /-- `STEP l` (R106): the length to process. -/
  | step (l : Half)
  /-- `RUN r` (R108): round count. -/
  | run (r : Half)
  /-- `REDUCE` (R121). -/
  | reduce
  /-- `RDDIG i` (R123): digest byte index. -/
  | rddig (i : Byte)
  /-- `HEXB b` (R133): the byte to encode. -/
  | hexb (b : Byte)
  /-- `HEXD h` (R134): two packed characters, the first in bits 15..8. -/
  | hexd (h : Half)
  /-- `RDHEX j` (R135): character index. -/
  | rdhex (j : Byte)
  /-- `CKSUM` (R143). -/
  | cksum
deriving DecidableEq, Repr

/-- The three fields of a command word in format `F0` (R70). -/
structure Fields where
  op  : Byte
  a   : Byte
  imm : Half
deriving DecidableEq, Repr

/-- A line of the assembly notation (R80) with its numerals as they are written, so of any size, and the two
pseudo-instructions (R85). `lstr` takes the character codes of its text: the table from characters to codes is the
host's (R85, G2). DESIGN CHOICE (log entry 12), safe. -/
inductive AsmLine where
  | nop
  | init (n : Nat)
  | rdsr (s : Nat)
  | rev (c l : Nat)
  | rdbuf (i : Nat)
  | lclr
  | lpush (l : Nat)
  | rdll (j : Nat)
  | step (l : Nat)
  | run (r : Nat)
  | reduce
  | rddig (i : Nat)
  | hexb (b : Nat)
  | hexd (h : Nat)
  | rdhex (j : Nat)
  | cksum
  /-- `LSALT` (R85). -/
  | lsalt
  /-- `LSTR "text"` (R85), by the codes of its characters. -/
  | lstr (codes : List Nat)
deriving DecidableEq, Repr

end Sys2Proof
end

