-- ==== Sys2Proof/WellFormed.lean ====
section
/-! DEFINITION. Which words and which assembly lines are well formed (spec/30_encoding.md R71, R74, R80).
An `Instr` needs no check of its own: its operands have the widths of their fields. -/

namespace Sys2Proof

/-- Which of its two operand fields a command uses (the columns `a` and `imm` of R71). -/
structure FieldUse where
  usesA   : Bool
  usesImm : Bool
deriving DecidableEq, Repr

/-- The table of R71: the 16 listed opcodes and the fields each uses; `none` for the 240 unlisted ones (R74). -/
def fieldUse (op : Byte) : Option FieldUse :=
  match op.toNat with
  | 0x00 => some ⟨false, false⟩
  | 0x01 => some ⟨false, true⟩
  | 0x02 => some ⟨true, false⟩
  | 0x10 => some ⟨true, true⟩
  | 0x11 => some ⟨true, false⟩
  | 0x20 => some ⟨false, false⟩
  | 0x21 => some ⟨false, true⟩
  | 0x22 => some ⟨false, true⟩
  | 0x23 => some ⟨false, true⟩
  | 0x24 => some ⟨false, true⟩
  | 0x30 => some ⟨false, false⟩
  | 0x31 => some ⟨true, false⟩
  | 0x40 => some ⟨true, false⟩
  | 0x41 => some ⟨false, true⟩
  | 0x42 => some ⟨true, false⟩
  | 0x50 => some ⟨false, false⟩
  | _ => none

/-- R71: "A field a command does not use **must be zero**", and R74: an unlisted opcode is illegal. -/
def Fields.wellFormed (f : Fields) : Bool :=
  match fieldUse f.op with
  | none => false
  | some u => (u.usesA || f.a == 0#8) && (u.usesImm || f.imm == 0#16)

/-- A numeral fits the 8-bit field `a` (R72). -/
def fitsA (v : Nat) : Bool := v < 256

/-- A numeral fits the 16-bit field `imm` (R72). -/
def fitsImm (v : Nat) : Bool := v < 65536

/-- R80: an operand that does not fit its field is an assembly-time error. The codes of `LSTR` are bytes (R85). -/
def AsmLine.wellFormed : AsmLine → Bool
  | .nop | .lclr | .reduce | .cksum | .lsalt => true
  | .rdsr v | .rdbuf v | .rddig v | .hexb v | .rdhex v => fitsA v
  | .init v | .lpush v | .rdll v | .step v | .run v | .hexd v => fitsImm v
  | .rev c l => fitsA c && fitsImm l
  | .lstr codes => codes.all fitsA

end Sys2Proof
end

