-- ==== Sys2Proof/Decode.lean ====
section
/-! DEFINITION. Decoding and encoding command words (spec/30_encoding.md R70 to R74). -/

namespace Sys2Proof

/-- Why a word is illegal (R74): its opcode is unlisted, or a field its command does not use is not zero. -/
inductive DecodeError where
  | unlistedOpcode
  | nonzeroUnusedField
deriving DecidableEq, Repr

/-- Bits 31..24 of a command word (R70). -/
def opField (w : Word) : Byte := w.extractLsb' 24 8

/-- Bits 23..16 of a command word (R70). -/
def aField (w : Word) : Byte := w.extractLsb' 16 8

/-- Bits 15..0 of a command word (R70). -/
def immField (w : Word) : Half := w.extractLsb' 0 16

/-- The fields of a command word (R70). -/
def fieldsOf (w : Word) : Fields := ⟨opField w, aField w, immField w⟩

/-- The word of three fields: `op * 2^24 + a * 2^16 + imm` (R70). -/
def wordOf (f : Fields) : Word := f.op ++ f.a ++ f.imm

/-- A command that uses neither operand field (R71). -/
def noOperand (f : Fields) (i : Instr) : Except DecodeError Instr :=
  if f.a = 0#8 ∧ f.imm = 0#16 then .ok i else .error .nonzeroUnusedField

/-- A command that uses `a` only (R71). -/
def aOperand (f : Fields) (i : Byte → Instr) : Except DecodeError Instr :=
  if f.imm = 0#16 then .ok (i f.a) else .error .nonzeroUnusedField

/-- A command that uses `imm` only (R71). -/
def immOperand (f : Fields) (i : Half → Instr) : Except DecodeError Instr :=
  if f.a = 0#8 then .ok (i f.imm) else .error .nonzeroUnusedField

/-- The command of three fields, by the table of R71; every other triple is illegal (R74). -/
def decodeFields (f : Fields) : Except DecodeError Instr :=
  match f.op.toNat with
  | 0x00 => noOperand f .nop
  | 0x01 => immOperand f .init
  | 0x02 => aOperand f .rdsr
  | 0x10 => .ok (.rev f.a f.imm)
  | 0x11 => aOperand f .rdbuf
  | 0x20 => noOperand f .lclr
  | 0x21 => immOperand f .lpush
  | 0x22 => immOperand f .rdll
  | 0x23 => immOperand f .step
  | 0x24 => immOperand f .run
  | 0x30 => noOperand f .reduce
  | 0x31 => aOperand f .rddig
  | 0x40 => aOperand f .hexb
  | 0x41 => immOperand f .hexd
  | 0x42 => aOperand f .rdhex
  | 0x50 => noOperand f .cksum
  | _ => .error .unlistedOpcode

/-- The decoder, total on all `2^32` words (R73, R74). -/
def decode (w : Word) : Except DecodeError Instr := decodeFields (fieldsOf w)

/-- The fields of a command, unused ones zero (R71). -/
def encodeFields : Instr → Fields
  | .nop     => ⟨0x00#8, 0#8, 0#16⟩
  | .init n  => ⟨0x01#8, 0#8, n⟩
  | .rdsr s  => ⟨0x02#8, s, 0#16⟩
  | .rev c l => ⟨0x10#8, c, l⟩
  | .rdbuf i => ⟨0x11#8, i, 0#16⟩
  | .lclr    => ⟨0x20#8, 0#8, 0#16⟩
  | .lpush l => ⟨0x21#8, 0#8, l⟩
  | .rdll j  => ⟨0x22#8, 0#8, j⟩
  | .step l  => ⟨0x23#8, 0#8, l⟩
  | .run r   => ⟨0x24#8, 0#8, r⟩
  | .reduce  => ⟨0x30#8, 0#8, 0#16⟩
  | .rddig i => ⟨0x31#8, i, 0#16⟩
  | .hexb b  => ⟨0x40#8, b, 0#16⟩
  | .hexd h  => ⟨0x41#8, 0#8, h⟩
  | .rdhex j => ⟨0x42#8, j, 0#16⟩
  | .cksum   => ⟨0x50#8, 0#8, 0#16⟩

/-- The word of a command (R70, R80). -/
def encode (i : Instr) : Word := wordOf (encodeFields i)

/-- One row of the opcode map in match and mask form (R73). -/
structure OpcodeRow where
  mnemonic : String
  pattern  : Word
  mask     : Word
deriving DecidableEq, Repr

/-- A word is the command of a row exactly when `(w and mask) = match` (R73). -/
def OpcodeRow.hits (r : OpcodeRow) (w : Word) : Bool := w &&& r.mask == r.pattern

/-- The sixteen rows of R73, in its order. The decoder does not use them: that it agrees with them is a statement. -/
def opcodeRows : List OpcodeRow :=
  [⟨"NOP",    0x00000000#32, 0xFFFFFFFF#32⟩,
   ⟨"INIT",   0x01000000#32, 0xFFFF0000#32⟩,
   ⟨"RDSR",   0x02000000#32, 0xFF00FFFF#32⟩,
   ⟨"REV",    0x10000000#32, 0xFF000000#32⟩,
   ⟨"RDBUF",  0x11000000#32, 0xFF00FFFF#32⟩,
   ⟨"LCLR",   0x20000000#32, 0xFFFFFFFF#32⟩,
   ⟨"LPUSH",  0x21000000#32, 0xFFFF0000#32⟩,
   ⟨"RDLL",   0x22000000#32, 0xFFFF0000#32⟩,
   ⟨"STEP",   0x23000000#32, 0xFFFF0000#32⟩,
   ⟨"RUN",    0x24000000#32, 0xFFFF0000#32⟩,
   ⟨"REDUCE", 0x30000000#32, 0xFFFFFFFF#32⟩,
   ⟨"RDDIG",  0x31000000#32, 0xFF00FFFF#32⟩,
   ⟨"HEXB",   0x40000000#32, 0xFF00FFFF#32⟩,
   ⟨"HEXD",   0x41000000#32, 0xFFFF0000#32⟩,
   ⟨"RDHEX",  0x42000000#32, 0xFF00FFFF#32⟩,
   ⟨"CKSUM",  0x50000000#32, 0xFFFFFFFF#32⟩]

/-- The mnemonic of a command (R71). -/
def mnemonicOf : Instr → String
  | .nop => "NOP"
  | .init _ => "INIT"
  | .rdsr _ => "RDSR"
  | .rev _ _ => "REV"
  | .rdbuf _ => "RDBUF"
  | .lclr => "LCLR"
  | .lpush _ => "LPUSH"
  | .rdll _ => "RDLL"
  | .step _ => "STEP"
  | .run _ => "RUN"
  | .reduce => "REDUCE"
  | .rddig _ => "RDDIG"
  | .hexb _ => "HEXB"
  | .hexd _ => "HEXD"
  | .rdhex _ => "RDHEX"
  | .cksum => "CKSUM"

/-- The command word whose low `nbits` bits are those of `w` and whose other bits are zero. A command is one word with
bit 0 its least significant bit (R9, R70), so no byte order enters. -/
def tableWord (nbits w : Nat) : Word := BitVec.ofNat 32 (w % 2 ^ nbits)

/-- What the decoder reads from a word numbered as spec/opcode_table.json numbers it. -/
def decodeTableWord (nbits w : Nat) : Option Instr :=
  match decode (tableWord nbits w) with
  | .ok i => some i
  | .error _ => none

end Sys2Proof
end

