-- ==== Sys2Proof/Config.lean ====
section
/-! DEFINITION. The one open parameter of the hardware (spec/00_scope.md R5): the depth of the length-list memory.
A state carries its configuration, so that a statement about every state is a statement about every depth. -/

namespace Sys2Proof

/-- What an implementation fixes. R5: `LDEPTH`, `1 <= LDEPTH <= 65536`, is "OPEN, model argument". It is held as the
index of the last entry of `LL`, so that every value of the type is a legal parameter. DESIGN CHOICE (log entry 1),
safe. -/
structure Config where
  /-- The index of the last entry of `LL`: `LDEPTH - 1`. -/
  lastIndex : BitVec 16
deriving DecidableEq, Repr

/-- `LDEPTH`, the number of entries the length-list memory holds (R5, R32). -/
def Config.ldepth (c : Config) : Nat := c.lastIndex.toNat + 1

/-- The spec's default, `LDEPTH = 1024` (R5, D7). DESIGN CHOICE (log entry 1): unsafe for a statement that rests on
this depth. -/
def Config.default : Config := ⟨1023#16⟩

end Sys2Proof
end

