-- ==== Sys2Proof/Machine/State.lean ====
section
/-! DEFINITION. The state of the KNOT core (spec/10_state.md R20), its response port (spec/30_encoding.md R76 to R78),
the host's pending actions (spec/70_reset_and_hazards.md R190), and the state after reset (R45, R181). -/

namespace Sys2Proof.Machine

/-- The failure causes (R150). `faulted` is the refusal and is never recorded in `CAUSE` (R164). -/
inductive Cause where
  | illegal | noInit | badN | oversize | misaligned | badCur | index | lFull | skipOvf | noDigest | badHex | badSr
  | faulted
deriving DecidableEq, Repr

/-- The response to a command: the pair `(err, data)` (R76). -/
structure Response where
  err  : Bool
  data : Word
deriving DecidableEq, Repr

/-- What the host can do at the ports (R190). DESIGN CHOICE (log entry 2), safe: the host's actions are data of the
state, so that every sequence of them is some state. -/
inductive HostEvent where
  /-- The host offers a command word (`cmd_valid = 1`, `cmd_data = w`) until the core accepts it (R78). -/
  | command (w : Word)
  /-- The host accepts the waiting response (`rsp_ready = 1`) (R78). -/
  | takeResponse
  /-- The host asserts `rst` (R180). -/
  | reset
deriving DecidableEq, Repr

/-- Why the model stops. The spec has no stuck behaviour (spec/93_implementation_defined.md, after U15), and both
reasons arise only in states that R36 rules out: safe. -/
inductive Fault where
  /-- Raised by `RDBUF`, `RDLL`, `RDDIG`, `RDHEX`, `CKSUM`, `REDUCE` and `RUN` in a state whose counters cover a
  storage entry that the storage does not hold (R46, U4: "model as absent"). Safe; log entry 4. -/
  | absentEntry
  /-- Raised by `REV`, `STEP` and `RUN` in a state where `Reverse` has no meaning: `CUR` is not below `N`, or `BUF` does
  not hold `N` entries (R90, U3). Safe; log entry 5. -/
  | reverseWithoutMeaning
deriving DecidableEq, Repr

/-- Why the model gives an instruction no meaning. -/
inductive Refusal where
  /-- Raised by the arm of an instruction that has no meaning yet; no arm of this model is one. Safe. -/
  | notModelled (mnemonic : String)
deriving DecidableEq, Repr

/-- The architectural state of one KNOT core, "Nothing else is state" (R20). The three storage files hold exactly their
architectural entries; the others are absent, as R46 offers. DESIGN CHOICE (log entry 4), safe. -/
structure Arch where
  /-- `BUF[0..N-1]`, the circular buffer (R21). -/
  buf : List Byte
  /-- `NREG`, the buffer size `N`, or 0 when there is none (R23). -/
  nreg : BitVec 9
  /-- `CUR`, the cursor (R25). -/
  cur : BitVec 8
  /-- `SKIP`, the skip size (R26). -/
  skip : BitVec 32
  /-- `LL[0..LCNT-1]`, the length list in push order (R27). -/
  ll : List Half
  /-- `LCNT`, the number of entries of the list (R27). -/
  lcnt : BitVec 17
  /-- `RND`, the round number of the sequencer position (R24). -/
  rnd : BitVec 16
  /-- `LIDX`, the list index of the sequencer position (R24). -/
  lidx : BitVec 17
  /-- `DIG[0..DCNT-1]`, the digest bytes (R28). -/
  dig : List Byte
  /-- `DCNT`, the number of digest bytes (R28). -/
  dcnt : BitVec 5
  /-- `STATUS.INITD`: a buffer exists (R29). -/
  initd : Bool
  /-- `STATUS.FAULT`: a fault is recorded (R29). -/
  fault : Bool
  /-- `STATUS.DVALID`: the digest is that of the present buffer (R29). -/
  dvalid : Bool
  /-- `CAUSE`, the code of the recorded fault, or 0 (R30). -/
  cause : BitVec 4
  /-- `FINFO`, what the recorded fault stored, or 0 (R31). -/
  finfo : BitVec 32
deriving DecidableEq, Repr

/-- The core with its ports. -/
structure State extends Arch where
  /-- The response port: the response that waits to be transferred, if any (R78). -/
  rsp : Option Response
  /-- The model argument `LDEPTH` (R5): configuration, which no step changes. -/
  config : Config
  /-- The host's pending actions, oldest first (R190). -/
  host : List HostEvent
  /-- The responses the host has received since the model's start, oldest first (log entry 3). The responses of one run
  are Machine/Run.lean's (R191). -/
  delivered : List Response
deriving DecidableEq, Repr

/-- The registers after reset (R45, R181): every scalar and flag 0, no storage entry architectural (R46). -/
def Arch.reset : Arch where
  buf := []
  nreg := 0#9
  cur := 0#8
  skip := 0#32
  ll := []
  lcnt := 0#17
  rnd := 0#16
  lidx := 0#17
  dig := []
  dcnt := 0#5
  initd := false
  fault := false
  dvalid := false
  cause := 0#4
  finfo := 0#32

/-- The machine right after reset (R45): the registers as R181 says, the response port idle. The depth is the spec's
default (log entry 1); the host has done nothing yet (log entries 2, 3). -/
def State.reset : State where
  toArch := Arch.reset
  rsp := none
  config := Config.default
  host := []
  delivered := []

end Sys2Proof.Machine
end

