-- ==== Sys2Proof/Machine/Flags.lean ====
section
/-! DEFINITION. The status flags, the cause codes and the output pins (spec/10_state.md R29, spec/60_exceptions.md R150,
R168, spec/30_encoding.md R78). The hardware has no arithmetic condition codes. -/

namespace Sys2Proof.Machine

/-- The cause codes (R150). -/
def causeCode : Cause → BitVec 4
  | .illegal    => 1#4
  | .noInit     => 2#4
  | .badN       => 3#4
  | .oversize   => 4#4
  | .misaligned => 5#4
  | .badCur     => 6#4
  | .index      => 7#4
  | .lFull      => 8#4
  | .skipOvf    => 9#4
  | .noDigest   => 10#4
  | .badHex     => 11#4
  | .badSr      => 12#4
  | .faulted    => 13#4

/-- The status word `{29'b0, DVALID, FAULT, INITD}` (R29). -/
def statusWord (s : State) : Word :=
  0#29 ++ BitVec.ofBool s.dvalid ++ BitVec.ofBool s.fault ++ BitVec.ofBool s.initd

/-- `DVALID <- 0 ; DCNT <- 0` (R29). No digest byte is architectural afterwards (R28, R46). -/
def clearDigest (s : State) : State :=
  { s with dvalid := false, dcnt := 0#5, dig := [] }

/-- `FAULT <- 0 ; CAUSE <- 0 ; FINFO <- 0`, a part of `INIT` only (R141, R167). -/
def clearFault (s : State) : State :=
  { s with fault := false, cause := 0#4, finfo := 0#32 }

/-- The output pin `fault`, a level copy of `STATUS.FAULT` (R77, R168). -/
def faultPin (s : State) : Bool := s.fault

/-- The output `cmd_ready`: no response is waiting (R78). No command is executing between two steps
(log entry 13). -/
def cmdReady (s : State) : Bool := s.rsp.isNone

/-- The output `rsp_valid`: a response waits (R78). -/
def rspValid (s : State) : Bool := s.rsp.isSome

end Sys2Proof.Machine
end

