-- ==== Sys2Proof/Machine/Operands.lean ====
section
/-! DEFINITION. The constants of the core (spec/00_scope.md R5, spec/10_state.md R32) and what is computed from operands:
ring indices (spec/20_memory.md R51) and hex characters (spec/43_hex_encoder.md R130 to R132). Every operand is its whole
field, unsigned (spec/30_encoding.md R72); a plain index is used as it is (R51). -/

namespace Sys2Proof.Machine

/-- `NMAX`, the largest buffer size (R5). -/
def nMax : Nat := 256

/-- `BLK`, the elements of a reduction block (R5). -/
def blockSize : Nat := 16

/-- The largest value of `SKIP`, at which no further step is made (R14, R159). -/
def skipMax : Word := 0xFFFFFFFF#32

/-- The constant `ID` (R32). -/
def idWord : Word := 0x4B4E0001#32

/-- `N`, the buffer size of the current computation: the value of `NREG` (R23). -/
def bufSize (s : State) : Nat := s.nreg.toNat

/-- Ring addressing: offset `k` from position `c` in a ring of `n` (R51). -/
def ringIndex (n c k : Nat) : Nat := (c + k) % n

/-- The first character of a packed pair, `imm[15:8]` (R72). -/
def firstChar (h : Half) : Byte := h.extractLsb' 8 8

/-- The second character of a packed pair, `imm[7:0]` (R72). -/
def secondChar (h : Half) : Byte := h.extractLsb' 0 8

/-- Two characters packed in 16 bits, the first in the high byte (R53 item 3). -/
def packChars (h l : Byte) : Half := h ++ l

/-- The more significant nibble of a byte, `b div 16` (R130). -/
def highNibble (b : Byte) : BitVec 4 := b.extractLsb' 4 4

/-- The less significant nibble of a byte, `b mod 16` (R130). -/
def lowNibble (b : Byte) : BitVec 4 := b.extractLsb' 0 4

/-- `C(d)`, the character code of a digit (R131). That the codes are ASCII is PRESUMED by the spec itself (G1, log
entry 9). -/
def hexChar (d : BitVec 4) : Byte :=
  if d.toNat ≤ 9 then BitVec.ofNat 8 (0x30 + d.toNat) else BitVec.ofNat 8 (0x61 + (d.toNat - 10))

/-- `D(x)`, the inverse of `C`, defined on its sixteen codes only (R131). -/
def hexDigit (x : Byte) : Option (BitVec 4) :=
  if 0x30 ≤ x.toNat ∧ x.toNat ≤ 0x39 then some (BitVec.ofNat 4 (x.toNat - 0x30))
  else if 0x61 ≤ x.toNat ∧ x.toNat ≤ 0x66 then some (BitVec.ofNat 4 (x.toNat - 0x61 + 10))
  else none

/-- `Hex2(b)`: the two characters of a byte, the more significant nibble first (R130). -/
def hex2 (b : Byte) : Byte × Byte := (hexChar (highNibble b), hexChar (lowNibble b))

/-- `Unhex2(h, l) = 16 * D(h) + D(l)`, undefined where `D` is (R132). -/
def unhex2 (h l : Byte) : Option Byte :=
  match hexDigit h, hexDigit l with
  | some dh, some dl => some (BitVec.ofNat 8 (16 * dh.toNat + dl.toNat))
  | _, _ => none

end Sys2Proof.Machine
end

