-- ==== Sys2Proof/Machine/Ops.lean ====
section
/-! DEFINITION. The shared operations of the meanings: answering (spec/00_scope.md R12, spec/30_encoding.md R76), taking a
fault and refusing (spec/60_exceptions.md R160, R164), the decode order (R75), reads of the indexed spaces
(spec/20_memory.md R50, R55), the buffer reversal (spec/40_buffer_reversal.md R90) and the block reduction
(spec/42_reducer.md R120), and the way out of a fault, a fresh computation (spec/44_checksum_system.md R141). -/

namespace Sys2Proof.Machine

/-- What one command ends in. -/
abbrev Result := Host.Outcome State Fault Refusal

/-- `respond(v)`: the response `(0, v)` (R12, R76). The core has accepted the command, so no response waits: this one
replaces whatever stood there. DESIGN CHOICE (log entry 7), safe. -/
def respond (v : Word) (s : State) : Result :=
  .next { s with rsp := some ⟨false, v⟩ }

/-- The error response of a cause: `(1, code)`, whether or not the cause is recorded (R76). -/
def errorResponse (c : Cause) : Response := ⟨true, (causeCode c).setWidth 32⟩

/-- Fault entry (R160): the first fault is recorded, a later one changes no register; the response names this one. -/
def faultEntry (c : Cause) (info : Word) (s : State) : State :=
  if s.fault then { s with rsp := some (errorResponse c) }
  else { s with fault := true, cause := causeCode c, finfo := info, rsp := some (errorResponse c) }

/-- `raise Fault(code, info)` ends the command with fault entry (R12, R160). -/
def raise (c : Cause) (info : Word) (s : State) : Result :=
  .next (faultEntry c info s)

/-- Refusal while faulted: `(1, E_FAULTED)` and no register changes (R164, R75 step 2). -/
def refuse (s : State) : Result :=
  .next { s with rsp := some (errorResponse .faulted) }

/-- Step 2 of the decode order (R75), for a command that needs no buffer. -/
def unlessFaulted (s : State) (body : State → Result) : Result :=
  if s.fault then refuse s else body s

/-- Steps 2 and 3 of the decode order (R75), for a command that needs a buffer. The word `E_NOINIT` records (R150) is
the command's own: a command is the meaning of one word only. DEDUCED (log entry 6), safe. -/
def whenReady (i : Instr) (s : State) (body : State → Result) : Result :=
  unlessFaulted s fun s => if s.initd then body s else raise .noInit (encode i) s

/-- The word `w` matches no row of the opcode map: step 1 of the decode order (R75, R151). -/
def raiseIllegal (w : Word) (s : State) : Result := raise .illegal w s

/-- `BUF[i]`, absent outside the entries the buffer holds (R46). -/
def readBuf (s : State) (i : Nat) : Option Byte := s.buf[i]?

/-- `LL[j]`, absent outside the entries the list holds (R46). -/
def readList (s : State) (j : Nat) : Option Half := s.ll[j]?

/-- `DIG[i]`, absent outside the bytes the digest holds (R46). -/
def readDigest (s : State) (i : Nat) : Option Byte := s.dig[i]?

/-- The response of a direct read: the entry, zero-extended (R55). An absent entry stops the model (log entry 4). -/
def respondEntry {w : Nat} (entry : Option (BitVec w)) (s : State) : Result :=
  match entry with
  | some v => respond (v.setWidth 32) s
  | none => .fault .absentEntry

/-- The value column of the status-register table (R33); `none` for an unimplemented number. -/
def statusRegister (s : State) (number : Nat) : Option Word :=
  match number with
  | 0 => some (statusWord s)
  | 1 => some (s.cause.setWidth 32)
  | 2 => some s.finfo
  | 3 => some (s.nreg.setWidth 32)
  | 4 => some (s.cur.setWidth 32)
  | 5 => some s.skip
  | 6 => some (s.lcnt.setWidth 32)
  | 7 => some (s.dcnt.setWidth 32)
  | 8 => some (s.lidx.setWidth 32)
  | 9 => some (s.rnd.setWidth 32)
  | 10 => some (BitVec.ofNat 32 s.config.ldepth)
  | 11 => some idWord
  | _ => none

/-- One assignment of the loop of R90: `BUF[(c + k) mod N] <- old[(c + L - 1 - k) mod N]`. -/
def reverseWrite (n c l : Nat) (old buf : List Byte) (k : Nat) : List Byte :=
  match old[ringIndex n c (l - 1 - k)]? with
  | some v => buf.set (ringIndex n c k) v
  | none => buf

/-- `Reverse(c, L)` on a ring of `n` elements (R90): the loop over `k` in `0 .. L-1`, reading the old contents. It has
no value outside `c < N`, `L <= N` ("no meaning for `L > N` and a model must not give it one"). -/
def reverse (n : Nat) (old : List Byte) (c l : Nat) : Option (List Byte) :=
  if c < n ∧ l ≤ n ∧ old.length = n then
    some ((List.range l).foldl (reverseWrite n c l old) old)
  else none

/-- `Block(i)`: the exclusive-or of the 16 elements `[16i, 16i+16)` (R120). -/
def block (buf : List Byte) (i : Nat) : Byte :=
  ((buf.drop (blockSize * i)).take blockSize).foldl (· ^^^ ·) 0#8

/-- The reductions of all blocks, block 0 first (R121). -/
def blocks (buf : List Byte) (n : Nat) : List Byte :=
  (List.range (n / blockSize)).map (block buf)

/-- The identity contents `0 .. n-1` (R141). -/
def identityBuffer (n : Nat) : List Byte := (List.range n).map (BitVec.ofNat 8)

/-- The effects of a successful `INIT n` (R141): every register is rewritten, the recorded fault is cleared. It is the
only way out of a fault but for reset (R167). -/
def construct (n : Half) (s : State) : State :=
  { clearFault (clearDigest s) with
    nreg := n.setWidth 9
    buf := identityBuffer n.toNat
    cur := 0#8
    skip := 0#32
    ll := []
    lcnt := 0#17
    rnd := 0#16
    lidx := 0#17
    initd := true }

end Sys2Proof.Machine
end

