-- ==== Sys2Proof/Machine/Buffer.lean ====
section
/-! DEFINITION. The CircularBuffer family `REV`, `RDBUF` (spec/40_buffer_reversal.md R93, R94). -/

namespace Sys2Proof.Machine

/-- `REV c, l` (R93): the reversal at a given position; it leaves `CUR` and `SKIP` alone. -/
def execRev (c : Byte) (l : Half) (s : State) : Result :=
  whenReady (.rev c l) s fun s =>
    if c.toNat ≥ bufSize s then raise .badCur (c.setWidth 32) s
    else if l.toNat > bufSize s then raise .oversize (l.setWidth 32) s
    else match reverse (bufSize s) s.buf c.toNat l.toNat with
      | some b => respond 0#32 { clearDigest s with buf := b }
      | none => .fault .reverseWithoutMeaning

/-- `RDBUF i` (R94). -/
def execRdbuf (i : Byte) (s : State) : Result :=
  whenReady (.rdbuf i) s fun s =>
    if i.toNat ≥ bufSize s then raise .index (i.setWidth 32) s
    else respondEntry (readBuf s i.toNat) s

end Sys2Proof.Machine
end

