-- ==== Sys2Proof/Machine/Checksum.lean ====
section
/-! DEFINITION. The simple checksum `CKSUM` (spec/44_checksum_system.md R143). -/

namespace Sys2Proof.Machine

/-- The exact product of two elements (R14, R143). -/
def product (x y : Byte) : Word := BitVec.ofNat 32 (x.toNat * y.toNat)

/-- `CKSUM` (R143): the product of the first two elements; the index at fault is 1 when there is no second one. -/
def execCksum (s : State) : Result :=
  whenReady .cksum s fun s =>
    if bufSize s < 2 then raise .index 1#32 s
    else match readBuf s 0, readBuf s 1 with
      | some x, some y => respond (product x y) s
      | _, _ => .fault .absentEntry

end Sys2Proof.Machine
end

