-- ==== Sys2Proof/Machine/Hex.lean ====
section
/-! DEFINITION. The HexEncoder family `HEXB`, `HEXD`, `RDHEX` (spec/43_hex_encoder.md R133 to R135). `HEXB` and `HEXD`
need no buffer (spec/30_encoding.md R75 step 3). -/

namespace Sys2Proof.Machine

/-- `HEXB b` (R133): the two characters of a byte, packed. -/
def execHexb (b : Byte) (s : State) : Result :=
  unlessFaulted s fun s => respond ((packChars (hex2 b).1 (hex2 b).2).setWidth 32) s

/-- `HEXD h` (R134): the byte of two packed characters; upper case is rejected. -/
def execHexd (h : Half) (s : State) : Result :=
  unlessFaulted s fun s =>
    match unhex2 (firstChar h) (secondChar h) with
    | some b => respond (b.setWidth 32) s
    | none => raise .badHex (h.setWidth 32) s

/-- Character `j` of the hex string whose byte `j div 2` is given (R135): the first character for even `j`. -/
def hexCharacter (j : Byte) (b : Byte) : Byte :=
  if j.toNat % 2 = 0 then (hex2 b).1 else (hex2 b).2

/-- `RDHEX j` (R135): validity is checked before the index; the string is computed from `DIG` (R34). -/
def execRdhex (j : Byte) (s : State) : Result :=
  whenReady (.rdhex j) s fun s =>
    if s.dvalid = false then raise .noDigest (j.setWidth 32) s
    else if j.toNat ≥ 2 * s.dcnt.toNat then raise .index (j.setWidth 32) s
    else respondEntry ((readDigest s (j.toNat / 2)).map (hexCharacter j)) s

end Sys2Proof.Machine
end

