-- ==== Sys2Proof/Machine/Reducer.lean ====
section
/-! DEFINITION. The DigestReducer family `REDUCE`, `RDDIG` (spec/42_reducer.md R121, R123). -/

namespace Sys2Proof.Machine

/-- `REDUCE` (R121): one byte per block of 16 elements, for every size that is a multiple of 16 (C2, D13). -/
def execReduce (s : State) : Result :=
  whenReady .reduce s fun s =>
    if bufSize s % blockSize ≠ 0 then raise .misaligned (s.nreg.setWidth 32) s
    else if s.buf.length ≠ bufSize s then .fault .absentEntry
    else respond 0#32
      { s with
        dig := blocks s.buf (bufSize s)
        dcnt := BitVec.ofNat 5 (bufSize s / blockSize)
        dvalid := true }

/-- `RDDIG i` (R123): validity is checked before the index. -/
def execRddig (i : Byte) (s : State) : Result :=
  whenReady (.rddig i) s fun s =>
    if s.dvalid = false then raise .noDigest (i.setWidth 32) s
    else if i.toNat ≥ s.dcnt.toNat then raise .index (i.setWidth 32) s
    else respondEntry (readDigest s i.toNat) s

end Sys2Proof.Machine
end

