-- ==== Sys2Proof/Machine/Scrambler.lean ====
section
/-! DEFINITION. The RoundScrambler family `LCLR`, `LPUSH`, `RDLL`, `STEP`, `RUN` (spec/41_scrambler.md R100 to R110). -/

namespace Sys2Proof.Machine

/-- `LCLR` (R100). The old entries are no longer architectural (R27). -/
def execLclr (s : State) : Result :=
  whenReady .lclr s fun s => respond 0#32 { s with ll := [], lcnt := 0#17 }

/-- `LPUSH l` (R101): the length is not compared with `N`. -/
def execLpush (l : Half) (s : State) : Result :=
  whenReady (.lpush l) s fun s =>
    if s.lcnt.toNat = s.config.ldepth then raise .lFull (l.setWidth 32) s
    else respond 0#32 { s with ll := s.ll ++ [l], lcnt := s.lcnt + 1#17 }

/-- `RDLL j` (R102). -/
def execRdll (j : Half) (s : State) : Result :=
  whenReady (.rdll j) s fun s =>
    if j.toNat ≥ s.lcnt.toNat then raise .index (j.setWidth 32) s
    else respondEntry (readList s j.toNat) s

/-- What a part of a command ends in: the command goes on from a state, or it has ended. -/
inductive Flow where
  | goOn (s : State)
  | ended (r : Result)

/-- `StepLen(L)` (R105): both checks come before any effect; the reversal is at the old cursor, the cursor advances by
the exact sum, the skip size counts the step. -/
def stepLen (l : Half) (s : State) : Flow :=
  if l.toNat > bufSize s then .ended (raise .oversize (l.setWidth 32) s)
  else if s.skip = skipMax then .ended (raise .skipOvf s.skip s)
  else match reverse (bufSize s) s.buf s.cur.toNat l.toNat with
    | some b =>
      .goOn { s with
        buf := b
        cur := BitVec.ofNat 8 ((s.cur.toNat + l.toNat + s.skip.toNat) % bufSize s)
        skip := s.skip + 1#32 }
    | none => .ended (.fault .reverseWithoutMeaning)

/-- The response of a command once its last part is done. -/
def finish : Flow → Result
  | .goOn s => respond 0#32 s
  | .ended r => r

/-- `STEP l` (R106): the two checks of `StepLen` come before `DVALID` is cleared. -/
def execStep (l : Half) (s : State) : Result :=
  whenReady (.step l) s fun s =>
    if l.toNat > bufSize s then raise .oversize (l.setWidth 32) s
    else if s.skip = skipMax then raise .skipOvf s.skip s
    else finish (stepLen l (clearDigest s))

/-- The inner loop of `RUN` (R108), `k` entries from position `LIDX` on: `StepLen(LL[LIDX]) ; LIDX <- LIDX + 1`. A step
that faults ends the command with `(RND, LIDX)` at its entry. -/
def runPass : Nat → State → Flow
  | 0, s => .goOn s
  | k + 1, s =>
    match readList s s.lidx.toNat with
    | none => .ended (.fault .absentEntry)
    | some l =>
      match stepLen l s with
      | .ended r => .ended r
      | .goOn t => runPass k { t with lidx := t.lidx + 1#17 }

/-- The outer loop of `RUN` (R108), `k` rounds: a pass over the list, then `LIDX <- 0 ; RND <- RND + 1`. -/
def runRounds : Nat → State → Flow
  | 0, s => .goOn s
  | k + 1, s =>
    match runPass s.lcnt.toNat s with
    | .ended r => .ended r
    | .goOn t => runRounds k { t with lidx := 0#17, rnd := t.rnd + 1#16 }

/-- `RUN r` (R108): `CUR` and `SKIP` go on from where they are; `DVALID` is cleared in any case. -/
def execRun (r : Half) (s : State) : Result :=
  whenReady (.run r) s fun s =>
    finish (runRounds r.toNat { clearDigest s with rnd := 0#16, lidx := 0#17 })

end Sys2Proof.Machine
end

