-- ==== Sys2Proof/Machine/System.lean ====
section
/-! DEFINITION. The system commands `NOP`, `INIT`, `RDSR` (spec/44_checksum_system.md R140 to R142): accepted in every
state, faulted or not, initialised or not. -/

namespace Sys2Proof.Machine

/-- `NOP` (R140). -/
def execNop (s : State) : Result := respond 0#32 s

/-- `INIT n` (R141). -/
def execInit (n : Half) (s : State) : Result :=
  if n.toNat = 0 ∨ n.toNat > nMax then raise .badN (n.setWidth 32) s
  else respond 0#32 (construct n s)

/-- `RDSR s` (R142); `r` is the register number. -/
def execRdsr (r : Byte) (s : State) : Result :=
  match statusRegister s r.toNat with
  | some v => respond v s
  | none => raise .badSr (r.setWidth 32) s

end Sys2Proof.Machine
end

