-- ==== Sys2Proof/Machine/Dispatch.lean ====
section
/-! DEFINITION. The dispatch of a decoded command to its meaning (spec/30_encoding.md R75 steps 2 to 4). -/

namespace Sys2Proof.Machine

/-- Steps 2 to 4 of the decode order (R75) for a decoded command. -/
def exec (i : Instr) (s : State) : Host.Outcome State Fault Refusal :=
  match i with
  | .nop => Sys2Proof.Machine.execNop s
  | .init n => Sys2Proof.Machine.execInit n s
  | .rdsr r => Sys2Proof.Machine.execRdsr r s
  | .rev c l => Sys2Proof.Machine.execRev c l s
  | .rdbuf k => Sys2Proof.Machine.execRdbuf k s
  | .lclr => Sys2Proof.Machine.execLclr s
  | .lpush l => Sys2Proof.Machine.execLpush l s
  | .rdll j => Sys2Proof.Machine.execRdll j s
  | .step l => Sys2Proof.Machine.execStep l s
  | .run r => Sys2Proof.Machine.execRun r s
  | .reduce => Sys2Proof.Machine.execReduce s
  | .rddig k => Sys2Proof.Machine.execRddig k s
  | .hexb b => Sys2Proof.Machine.execHexb b s
  | .hexd h => Sys2Proof.Machine.execHexd h s
  | .rdhex j => Sys2Proof.Machine.execRdhex j s
  | .cksum => Sys2Proof.Machine.execCksum s

end Sys2Proof.Machine
end

