-- ==== Sys2Proof/Machine/Port.lean ====
section
/-! DEFINITION. What one transfer at the ports does (spec/30_encoding.md R75, R78; spec/70_reset_and_hazards.md R180,
R190): a command word is executed, a response is handed to the host, or the core is reset. -/

namespace Sys2Proof.Machine

/-- `exec(state, w)` of R75, total on all words: an illegal word faults, a legal one runs. -/
def execWord (w : Word) (s : State) : Result :=
  match decode w with
  | .ok i => exec i s
  | .error _ => raiseIllegal w s

/-- The waiting response, if any, is transferred: the core is idle afterwards (R78). -/
def transferResponse (s : State) : State :=
  match s.rsp with
  | some r => { s with rsp := none, delivered := s.delivered ++ [r] }
  | none => s

/-- Reset (R180, R181): the registers of R45, no response pending. What the host has received and still intends, and the
configuration, are no state of the core. DESIGN CHOICE (log entry 10), safe. -/
def hostReset (s : State) : State :=
  { s with toArch := Arch.reset, rsp := none }

/-- One transfer at the ports. A command word is accepted only when no response waits (R78); the host that has a next
word to hand over first accepts the response that waits (R190: "accept the response ... wait for it before the next
command"). DESIGN CHOICE (log entry 3), safe. With no action of the host pending, the core is idle and "idle keeps all
state" (R176). -/
def transfer (s : State) : Result :=
  match s.host with
  | [] => .next s
  | .reset :: rest => .next (hostReset { s with host := rest })
  | .takeResponse :: rest => .next (transferResponse { s with host := rest })
  | .command w :: rest =>
    match s.rsp with
    | some _ => .next (transferResponse s)
    | none => execWord w { s with host := rest }

/-- The host's next action is to offer the word `w`, and the core is idle (R78, log entry 8). -/
def offerWord (w : Word) (s : State) : State :=
  { s with rsp := none, host := .command w :: s.host }

end Sys2Proof.Machine
end

