-- ==== Sys2Proof/Machine/Step.lean ====
section
/-! DEFINITION. One step of the machine, and the placing of a command word where the next step takes it. The core stores
no program of command words (spec/10_state.md R24): the host hands over each one. -/

namespace Sys2Proof.Machine

/-- One step: the next transfer at the ports (R7, R78). -/
def step (s : State) : Host.Outcome State Fault Refusal := transfer s

/-- The state whose next step executes the table's word `w` (log entry 8). -/
def State.withFetchWord (s : State) (nbits w : Nat) : State := offerWord (tableWord nbits w) s

end Sys2Proof.Machine
end

