-- ==== Sys2Proof/Machine/HostSide.lean ====
section
/-! DEFINITION. The host's side of the spec: the assembler of spec/30_encoding.md R80 and R85, and the command sequences
of the two pipelines (spec/41_scrambler.md R111, spec/44_checksum_system.md R144, R145). No step of the core uses it. -/

namespace Sys2Proof.Machine

/-- `SALT`, the fixed salt suffix (R5, R85). -/
def salt : List Half := [17#16, 31#16, 73#16, 47#16, 23#16]

/-- `ROUNDS_SIMPLE` (R5). -/
def roundsSimple : Half := 1#16

/-- `ROUNDS_DENSE` (R5). -/
def roundsDense : Half := 64#16

/-- The commands a well-formed assembly line stands for (R80, R85). -/
def expandLine : AsmLine → List Instr
  | .nop => [.nop]
  | .init n => [.init (BitVec.ofNat 16 n)]
  | .rdsr s => [.rdsr (BitVec.ofNat 8 s)]
  | .rev c l => [.rev (BitVec.ofNat 8 c) (BitVec.ofNat 16 l)]
  | .rdbuf i => [.rdbuf (BitVec.ofNat 8 i)]
  | .lclr => [.lclr]
  | .lpush l => [.lpush (BitVec.ofNat 16 l)]
  | .rdll j => [.rdll (BitVec.ofNat 16 j)]
  | .step l => [.step (BitVec.ofNat 16 l)]
  | .run r => [.run (BitVec.ofNat 16 r)]
  | .reduce => [.reduce]
  | .rddig i => [.rddig (BitVec.ofNat 8 i)]
  | .hexb b => [.hexb (BitVec.ofNat 8 b)]
  | .hexd h => [.hexd (BitVec.ofNat 16 h)]
  | .rdhex j => [.rdhex (BitVec.ofNat 8 j)]
  | .cksum => [.cksum]
  | .lsalt => salt.map .lpush
  | .lstr codes => codes.map (fun code => .lpush (BitVec.ofNat 16 code))

/-- The words of a line; "the assembler emits no word" for an operand that does not fit its field (R80). -/
def assemble (line : AsmLine) : Option (List Word) :=
  if line.wellFormed then some ((expandLine line).map encode) else none

/-- The length list of dense mode: the character codes, then the salt once (R111). -/
def denseList (codes : List Half) : List Half := codes ++ salt

/-- The simple checksum as a command sequence (R144). -/
def simpleChecksum (n : Half) (lengths : List Half) : List Instr :=
  .init n :: lengths.map .lpush ++ [.run roundsSimple, .cksum]

/-- The dense hash as a command sequence (R145): the last 32 responses are the digest string. -/
def denseHash (codes : List Half) : List Instr :=
  .init 256#16 :: (denseList codes).map .lpush ++ [.run roundsDense, .reduce]
    ++ (List.range 32).map (fun j => .rdhex (BitVec.ofNat 8 j))

end Sys2Proof.Machine
end

