-- ==== Sys2Proof/Machine/Run.lean ====
section
/-! DEFINITION. Runs (spec/70_reset_and_hazards.md R191): where a run starts, what ends it, its result, when it succeeded.
No step of the core uses them: "the end" is a notion of the host's and of a claim. -/

namespace Sys2Proof.Machine

/-- The result of a run: "the sequence of the `k` responses together with the final state" (R191). -/
structure RunResult where
  responses : List Response
  final     : State
deriving DecidableEq, Repr

/-- A run starts from the reset state or from the state just after a successful `INIT`, its response transferred
(R191). -/
def startsRun (s : State) : Prop :=
  s.rsp = none ∧
  (s.toArch = Arch.reset ∨ ∃ n u, 1 ≤ n.toNat ∧ n.toNat ≤ nMax ∧ s.toArch = (construct n u).toArch)

/-- One word handed over, executed, and its response transferred. -/
def handOver (w : Word) (s : State) : Option (Response × State) :=
  match execWord w s with
  | .next t =>
    match t.rsp with
    | some r => some (r, transferResponse t)
    | none => none
  | .fault _ | .refused _ => none

/-- The run of the words `w1, ..., wk`: it ends when the response to `wk` has been transferred (R191). -/
def runWords : List Word → State → Option RunResult
  | [], s => some ⟨[], s⟩
  | w :: rest, s =>
    match handOver w s with
    | none => none
    | some (r, t) => (runWords rest t).map fun x => ⟨r :: x.responses, x.final⟩

/-- The words of the run that the host's actions are, given whether a response is still to be transferred: none where
`rst` cuts it, "which has no result", and none where the last response is not transferred (R191). -/
def runOf : Bool → List HostEvent → Option (List Word)
  | waiting, [] => if waiting then none else some []
  | _, .reset :: _ => none
  | _, .takeResponse :: rest => runOf false rest
  | _, .command w :: rest => (runOf true rest).map (w :: ·)

/-- The result of the host's actions as a run from `s`, if they are one that ends (R191). -/
def runResult (events : List HostEvent) (s : State) : Option RunResult :=
  match runOf false events with
  | none => none
  | some words => runWords words s

/-- "A run *succeeded* when every response has `err = 0`" (R191): the run's own responses, none from before its start. -/
def runSucceeded (x : RunResult) : Bool := x.responses.all (fun r => !r.err)

end Sys2Proof.Machine
end

