-- ==== Sys2Proof/Safety.lean ====
section
/-! DEFINITION. What claims are stated in: the invariants of spec/10_state.md R36, the storage's canonical form (R46),
and the spec's own descriptions that the meanings are compared with: a reversal position by position
(spec/40_buffer_reversal.md R90), by swaps (R91), the left-fold over lengths (spec/41_scrambler.md R105, R109), trees of
gates (spec/42_reducer.md R122). No meaning uses this file. -/

namespace Sys2Proof.Machine

/-- The canonical form of the storage: each file holds exactly the entries its counter covers (R46). -/
abbrev State.storageWf (s : State) : Prop :=
  s.buf.length = bufSize s ∧ s.ll.length = s.lcnt.toNat ∧ s.dig.length = s.dcnt.toNat

/-- R36 items 1 and 2: a buffer exists exactly when `NREG` is not 0; it is a permutation of `0..N-1`, the cursor is in
it. -/
abbrev State.bufferOk (s : State) : Prop :=
  (s.initd = false ↔ s.nreg = 0#9) ∧ bufSize s ≤ nMax ∧
  s.buf.Perm (identityBuffer (bufSize s)) ∧ (s.initd = true → s.cur.toNat < bufSize s)

/-- R36 item 3: what holds before the first `INIT`. -/
abbrev State.beforeInitOk (s : State) : Prop :=
  s.initd = false →
    s.cur = 0#8 ∧ s.skip = 0#32 ∧ s.lcnt = 0#17 ∧ s.rnd = 0#16 ∧ s.lidx = 0#17 ∧ s.dvalid = false

/-- R36 item 4: the list fits its memory and the sequencer position lies in it. The last clause (the position leaves
entry 0 only by a fault of `RUN`, R24, R108) is what makes the item survive `LCLR`. DEDUCED (log entry 11). -/
abbrev State.listOk (s : State) : Prop :=
  s.lcnt.toNat ≤ s.config.ldepth ∧ (s.lidx.toNat < s.lcnt.toNat ∨ s.lidx = 0#17) ∧
  (s.fault = false → s.lidx = 0#17)

/-- R36 item 5, and R150: the recorded code is 1 to 12 (13 is never recorded, 14 and 15 never produced). -/
abbrev State.faultOk (s : State) : Prop :=
  (s.fault = false ↔ s.cause = 0#4) ∧ (s.fault = false → s.finfo = 0#32) ∧ s.cause.toNat ≤ 12

/-- R36 item 6: a valid digest is the reduction of the present buffer; without one there is no digest byte. -/
abbrev State.digestOk (s : State) : Prop :=
  if s.dvalid then
    s.initd = true ∧ bufSize s % 16 = 0 ∧ s.dcnt.toNat = bufSize s / 16 ∧ s.dig = blocks s.buf (bufSize s)
  else s.dcnt = 0#5 ∧ s.dig = []

/-- The invariants of R36 (items 1 to 6), with the storage's canonical form. Item 7 counts steps since `INIT`: it is the
statement of what `STEP` and `RUN` add to `SKIP`. -/
structure State.Inv (s : State) : Prop where
  storage : s.storageWf
  buffer : s.bufferOk
  beforeInit : s.beforeInitOk
  list : s.listOk
  fault : s.faultOk
  digest : s.digestOk

/-- The core accepts a command that needs a buffer: no fault is recorded and a buffer exists (R75). -/
abbrev State.ready (s : State) : Prop := s.fault = false ∧ s.initd = true

/-- The state that differs from `s` by the response `(0, v)` only (R76). -/
def answered (v : Word) (s : State) : State := { s with rsp := some ⟨false, v⟩ }

/-- The state that differs from `s` by the error response of the code only (R76, R164). -/
def rejected (code : BitVec 4) (s : State) : State := { s with rsp := some ⟨true, code.setWidth 32⟩ }

/-- The state after a first fault: the fault registers and the response say what failed, nothing else changed
(R160). -/
def trapped (code : BitVec 4) (info : Word) (s : State) : State :=
  { s with fault := true, cause := code, finfo := info, rsp := some ⟨true, code.setWidth 32⟩ }

/-- R90 read position by position: the `l` entries from `c` around the ring of `n` hold the old ones in the opposite
order, every other entry keeps its value. -/
def IsReversal (n c l : Nat) (old new : List Byte) : Prop :=
  new.length = n ∧
  (∀ k, k < l → new[(c + k) % n]? = old[(c + (l - 1 - k)) % n]?) ∧
  (∀ p, p < n → (∀ k, k < l → p ≠ (c + k) % n) → new[p]? = old[p]?)

/-- Two entries exchanged. -/
def swapEntries (buf : List Byte) (i j : Nat) : List Byte :=
  match buf[i]?, buf[j]? with
  | some x, some y => (buf.set i y).set j x
  | _, _ => buf

/-- R91: the reversal in place, by `l div 2` swaps. -/
def reverseBySwaps (n c l : Nat) (buf : List Byte) : List Byte :=
  (List.range (l / 2)).foldl (fun b k => swapEntries b ((c + k) % n) ((c + (l - 1 - k)) % n)) buf

/-- What the scrambler threads through the lengths: "(buffer, cursor, skipSize) as the fold accumulator" (R109). -/
structure Scramble where
  buf  : List Byte
  cur  : Nat
  skip : Nat
deriving DecidableEq, Repr

/-- The entry that the reversal of `l` entries from `c` leaves at position `p` (R90). -/
def reversedEntry (n c l : Nat) (buf : List Byte) (p : Nat) : Byte :=
  if (p + n - c) % n < l then buf.getD ((c + (l - 1 - (p + n - c) % n)) % n) 0#8 else buf.getD p 0#8

/-- "Per length L processed, in order": reverse at the cursor, advance it, count (R105). Numbers are unbounded here. -/
def scrambleStep (n : Nat) (x : Scramble) (l : Half) : Scramble where
  buf := (List.range n).map (reversedEntry n x.cur l.toNat x.buf)
  cur := (x.cur + l.toNat + x.skip) % n
  skip := x.skip + 1

/-- The left-fold over a sequence of lengths (R109). -/
def scramble (n : Nat) (x : Scramble) (lengths : List Half) : Scramble := lengths.foldl (scrambleStep n) x

/-- "`R` concatenated copies of LengthList" (R109). -/
def rounds (r : Nat) (list : List Half) : List Half := (List.replicate r list).flatten

/-- The scrambler's part of the state. -/
def scrambleOf (s : State) : Scramble := ⟨s.buf, s.cur.toNat, s.skip.toNat⟩

/-- The character codes of the digits 0 to 15, as the table of R131 lists them. -/
def hexCodes : List Byte :=
  [0x30#8, 0x31#8, 0x32#8, 0x33#8, 0x34#8, 0x35#8, 0x36#8, 0x37#8,
   0x38#8, 0x39#8, 0x61#8, 0x62#8, 0x63#8, 0x64#8, 0x65#8, 0x66#8]

/-- The exclusive-or of the 16 elements of block `i`, entry by entry (R120). -/
def xorOfBlock (buf : List Byte) (i : Nat) : Byte :=
  (List.range 16).foldl (fun x k => x ^^^ buf.getD (16 * i + k) 0#8) 0#8

/-- The commands whose success returns no value (R76). -/
def returnsNoValue : Instr → Bool
  | .nop | .init _ | .rev _ _ | .lclr | .lpush _ | .step _ | .run _ | .reduce => true
  | .rdsr _ | .rdbuf _ | .rdll _ | .rddig _ | .hexb _ | .hexd _ | .rdhex _ | .cksum => false

/-- The commands that read state and write none on success (R55, R133, R134, R140, R143). -/
def onlyReads : Instr → Bool
  | .nop | .rdsr _ | .rdbuf _ | .rdll _ | .rddig _ | .hexb _ | .hexd _ | .rdhex _ | .cksum => true
  | .init _ | .rev _ _ | .lclr | .lpush _ | .step _ | .run _ | .reduce => false

/-- The commands accepted while a fault is recorded (R75 step 2). -/
def acceptedWhileFaulted : Instr → Bool
  | .nop | .init _ | .rdsr _ => true
  | .rev _ _ | .rdbuf _ | .lclr | .lpush _ | .rdll _ | .step _ | .run _ | .reduce | .rddig _ | .hexb _ | .hexd _
  | .rdhex _ | .cksum => false

/-- The commands that need no buffer (R75 step 3, R152). -/
def needsNoBuffer : Instr → Bool
  | .nop | .init _ | .rdsr _ | .hexb _ | .hexd _ => true
  | .rev _ _ | .rdbuf _ | .lclr | .lpush _ | .rdll _ | .step _ | .run _ | .reduce | .rddig _ | .rdhex _ | .cksum => false

/-- The commands that may change the buffer (R186). -/
def writesBuffer : Instr → Bool
  | .init _ | .rev _ _ | .step _ | .run _ => true
  | .nop | .rdsr _ | .rdbuf _ | .lclr | .lpush _ | .rdll _ | .reduce | .rddig _ | .hexb _ | .hexd _ | .rdhex _
  | .cksum => false

/-- The commands that may change `CUR` and `SKIP` (R20). -/
def writesPosition : Instr → Bool
  | .init _ | .step _ | .run _ => true
  | .nop | .rdsr _ | .rev _ _ | .rdbuf _ | .lclr | .lpush _ | .rdll _ | .reduce | .rddig _ | .hexb _ | .hexd _
  | .rdhex _ | .cksum => false

/-- The commands that may change `RND` and `LIDX` (R20, R24). -/
def writesSequencer : Instr → Bool
  | .init _ | .run _ => true
  | .nop | .rdsr _ | .rev _ _ | .rdbuf _ | .lclr | .lpush _ | .rdll _ | .step _ | .reduce | .rddig _ | .hexb _ | .hexd _
  | .rdhex _ | .cksum => false

/-- The commands that may change `DIG`, `DCNT` and `DVALID` (R20, R28, R29). -/
def writesDigest : Instr → Bool
  | .init _ | .rev _ _ | .step _ | .run _ | .reduce => true
  | .nop | .rdsr _ | .rdbuf _ | .lclr | .lpush _ | .rdll _ | .rddig _ | .hexb _ | .hexd _ | .rdhex _ | .cksum => false

/-- The commands that may change the list and its count (R20, R52). -/
def writesList : Instr → Bool
  | .init _ | .lclr | .lpush _ => true
  | .nop | .rdsr _ | .rev _ _ | .rdbuf _ | .rdll _ | .step _ | .run _ | .reduce | .rddig _ | .hexb _ | .hexd _
  | .rdhex _ | .cksum => false

/-- Commands executed one after another, whatever they answer, until the model stops (R58, R191). -/
def execAll : List Instr → State → Result
  | [], s => .next s
  | i :: rest, s =>
    match exec i s with
    | .next t => execAll rest t
    | .fault r => .fault r
    | .refused r => .refused r

/-- The encoding of a command: its opcode and the operand fields it uses. With the other fields zero the word is the
command with its operands, else it is illegal (R71, R74). -/
def EncodedAs (op : Byte) (usesA usesImm : Bool) (command : Byte → Half → Instr) : Prop :=
  ∀ (a : Byte) (imm : Half),
    decode (op ++ a ++ imm) =
      if (usesA || a == 0#8) && (usesImm || imm == 0#16) then .ok (command a imm) else .error .nonzeroUnusedField

/-- The command is refused while a fault is recorded: "response (err = 1, data = E_FAULTED); no state changes at all"
(R75 step 2, R164). -/
def RefusedWhileFaulted (i : Instr) : Prop :=
  ∀ s : State, s.fault = true → exec i s = .next (rejected 13#4 s)

/-- The command is refused while a fault is recorded, and fails with `E_NOINIT`, the command word recorded, while there
is no buffer (R75 steps 2 and 3, R150). -/
def NeedsBuffer (i : Instr) : Prop :=
  RefusedWhileFaulted i ∧
  ∀ s : State, s.fault = false → s.initd = false → exec i s = .next (trapped 2#4 (encode i) s)

/-- A grouping of two-input exclusive-or gates over bytes (R122). -/
inductive XorTree where
  | leaf (x : Byte)
  | gate (l r : XorTree)
deriving DecidableEq, Repr

/-- The bytes at the leaves, left to right. -/
def XorTree.leaves : XorTree → List Byte
  | .leaf x => [x]
  | .gate l r => l.leaves ++ r.leaves

/-- The byte at the root. -/
def XorTree.root : XorTree → Byte
  | .leaf x => x
  | .gate l r => l.root ^^^ r.root

end Sys2Proof.Machine
end

