-- ==== Sys2Proof/Certificates/Slice0/Obligations.lean ====
section
/-! DEFINITION. The statements about the KNOT core, each from the numbered rules its docstring names. `trapped`,
`rejected` and `answered` (Sys2Proof/Safety.lean) are the states the spec describes: a first fault recorded, an error
response only, a successful response only. -/

open Sys2Proof Sys2Proof.Machine

/-! ## Encoding (spec/30_encoding.md) -/

/-- Decoding the word of a command gives the command back, every operand at every value (R70, R71). -/
def Obligations.DecodeInvertsEncode : Prop :=
  ∀ i : Instr, decode (encode i) = .ok i

/-- A legal word is the word of the command it decodes to: no two words mean one command (R70, R71, R73). It is why
`E_NOINIT` can record the command word from the command alone (log entry 6). -/
def Obligations.LegalWordIsEncodingOfItsCommand : Prop :=
  ∀ (w : Word) (i : Instr), decode w = .ok i → encode i = w

/-- R73: a word is the command of a row exactly when `(w and mask) = match`; a word is legal exactly when some row
matches it; at most one row does. -/
def Obligations.DecoderAgreesWithOpcodeMap : Prop :=
  ∀ w : Word,
    (∀ r ∈ opcodeRows, r.hits w = true ↔ ∃ i, decode w = .ok i ∧ mnemonicOf i = r.mnemonic) ∧
    ((∃ i, decode w = .ok i) ↔ ∃ r ∈ opcodeRows, r.hits w = true) ∧
    (∀ r₁ ∈ opcodeRows, ∀ r₂ ∈ opcodeRows, r₁.hits w = true → r₂.hits w = true → r₁ = r₂)

/-- R71, R74: a word is illegal exactly when its opcode is unlisted or a field its command does not use is not zero. -/
def Obligations.IllegalWordsAreTheIllFormedOnes : Prop :=
  ∀ w : Word, (∃ e, decode w = .error e) ↔ (fieldsOf w).wellFormed = false

/-- The words of the assembly examples of R80 decode to the commands they stand for. -/
def Obligations.AssemblyExampleWordsDecode : Prop :=
  decode 0x00000000#32 = .ok .nop ∧ decode 0x01000100#32 = .ok (.init 256#16) ∧
  decode 0x01000005#32 = .ok (.init 5#16) ∧ decode 0x02040000#32 = .ok (.rdsr 4#8) ∧
  decode 0x10030004#32 = .ok (.rev 3#8 4#16) ∧ decode 0x11010000#32 = .ok (.rdbuf 1#8) ∧
  decode 0x20000000#32 = .ok .lclr ∧ decode 0x210000A5#32 = .ok (.lpush 165#16) ∧
  decode 0x22000002#32 = .ok (.rdll 2#16) ∧ decode 0x23000003#32 = .ok (.step 3#16) ∧
  decode 0x24000040#32 = .ok (.run 64#16) ∧ decode 0x30000000#32 = .ok .reduce ∧
  decode 0x310F0000#32 = .ok (.rddig 15#8) ∧ decode 0x400A0000#32 = .ok (.hexb 10#8) ∧
  decode 0x41003061#32 = .ok (.hexd 0x3061#16) ∧ decode 0x421F0000#32 = .ok (.rdhex 31#8) ∧
  decode 0x50000000#32 = .ok .cksum

/-- R80, R85: for each form of a line, its word `op * 2^24 + a * 2^16 + imm`, and no word where an operand does not fit
its field (256 is the first value that does not fit `a`, 65536 the first that does not fit `imm`). `LSALT` gives the five
words R85 prints, `LSTR` one `LPUSH` per character code; that it takes codes, each a byte, is the model's choice (log entry
12). The words decode to the commands of the line. -/
def Obligations.AssemblerEmitsTheWordsOfTheLine : Prop :=
  assemble .nop = some [0x00000000#32] ∧ assemble .lclr = some [0x20000000#32] ∧
  assemble .reduce = some [0x30000000#32] ∧ assemble .cksum = some [0x50000000#32] ∧
  (∀ v, assemble (.rdsr v) = if v < 256 then some [BitVec.ofNat 32 (0x02 * 2 ^ 24 + v * 2 ^ 16)] else none) ∧
  (∀ v, assemble (.rdbuf v) = if v < 256 then some [BitVec.ofNat 32 (0x11 * 2 ^ 24 + v * 2 ^ 16)] else none) ∧
  (∀ v, assemble (.rddig v) = if v < 256 then some [BitVec.ofNat 32 (0x31 * 2 ^ 24 + v * 2 ^ 16)] else none) ∧
  (∀ v, assemble (.hexb v) = if v < 256 then some [BitVec.ofNat 32 (0x40 * 2 ^ 24 + v * 2 ^ 16)] else none) ∧
  (∀ v, assemble (.rdhex v) = if v < 256 then some [BitVec.ofNat 32 (0x42 * 2 ^ 24 + v * 2 ^ 16)] else none) ∧
  (∀ v, assemble (.init v) = if v < 65536 then some [BitVec.ofNat 32 (0x01 * 2 ^ 24 + v)] else none) ∧
  (∀ v, assemble (.lpush v) = if v < 65536 then some [BitVec.ofNat 32 (0x21 * 2 ^ 24 + v)] else none) ∧
  (∀ v, assemble (.rdll v) = if v < 65536 then some [BitVec.ofNat 32 (0x22 * 2 ^ 24 + v)] else none) ∧
  (∀ v, assemble (.step v) = if v < 65536 then some [BitVec.ofNat 32 (0x23 * 2 ^ 24 + v)] else none) ∧
  (∀ v, assemble (.run v) = if v < 65536 then some [BitVec.ofNat 32 (0x24 * 2 ^ 24 + v)] else none) ∧
  (∀ v, assemble (.hexd v) = if v < 65536 then some [BitVec.ofNat 32 (0x41 * 2 ^ 24 + v)] else none) ∧
  (∀ c l, assemble (.rev c l) =
    if c < 256 ∧ l < 65536 then some [BitVec.ofNat 32 (0x10 * 2 ^ 24 + c * 2 ^ 16 + l)] else none) ∧
  assemble .lsalt = some [0x21000011#32, 0x2100001F#32, 0x21000049#32, 0x2100002F#32, 0x21000017#32] ∧
  (∀ codes : List Nat, (∀ v ∈ codes, v < 256) →
    assemble (.lstr codes) = some (codes.map fun v => BitVec.ofNat 32 (0x21 * 2 ^ 24 + v))) ∧
  (∀ codes : List Nat, (∃ v ∈ codes, 256 ≤ v) → assemble (.lstr codes) = none) ∧
  (∀ (line : AsmLine) (ws : List Word), assemble line = some ws →
    ws.map decode = (expandLine line).map (Except.ok : Instr → Except DecodeError Instr))

/-! ## Steps, ports, reset (spec/30_encoding.md R75 to R78, spec/70_reset_and_hazards.md) -/

/-- A step of the idle core that is offered a word executes that word (R75), the offer taken (R78); where the word decodes
to a command, it is `exec` of the command. That the host's actions are a list of the state is the model's choice (log
entry 2). -/
def Obligations.StepRunsTheDecodedCommand : Prop :=
  ∀ (s : State) (w : Word) (rest : List HostEvent), s.rsp = none → s.host = .command w :: rest →
    step s = execWord w { s with host := rest } ∧
    (∀ i : Instr, decode w = .ok i → step s = exec i { s with host := rest })

/-- R151: a word that matches no row of the opcode map executes nothing and fails with `E_ILLEGAL`, in every state: it is
the first check of the decode order. The word is recorded unless a fault was already recorded (R160). -/
def Obligations.IllegalWordFaults : Prop :=
  ∀ (w : Word) (s : State), (∀ r ∈ opcodeRows, r.hits w = false) →
    (s.fault = false → execWord w s = .next (trapped 1#4 w s)) ∧
    (s.fault = true → execWord w s = .next (rejected 1#4 s))

/-- R78: while a response waits no command is accepted; the response is held until it is transferred, and responses are
received in order. That the host accepts the waiting response before it hands over its next word is the model's choice
(log entry 3). -/
def Obligations.ResponseIsHeldUntilTransferred : Prop :=
  ∀ (s : State) (r : Response), s.rsp = some r →
    cmdReady s = false ∧ rspValid s = true ∧
    (s.host = [] → step s = .next s) ∧
    (∀ w rest, s.host = .command w :: rest →
      step s = .next { s with rsp := none, delivered := s.delivered ++ [r] }) ∧
    (∀ rest, s.host = .takeResponse :: rest →
      step s = .next { s with rsp := none, host := rest, delivered := s.delivered ++ [r] })

/-- R176, R78: an idle core keeps all its state; accepting a response when none waits transfers nothing.
The list of the host's actions is the model's choice (log entries 2 and 3). -/
def Obligations.IdleCoreKeepsItsState : Prop :=
  ∀ s : State, s.rsp = none →
    cmdReady s = true ∧ rspValid s = false ∧
    (s.host = [] → step s = .next s) ∧
    (∀ rest, s.host = .takeResponse :: rest → step s = .next { s with host := rest })

/-- R45, R180, R181: reset, whenever it comes, leaves every scalar register and flag 0, no storage entry that can be
read, no response pending, the command port ready and the pin `fault` 0; the machine starts in such a state. The list of
the host's actions, the responses it received and the depth are the model's fields and stay (log entries 1, 2 and 3). R45 leaves the contents of the
storage unspecified and unreadable; that the lists are empty is the absence R46 offers, the model's choice (log entry 4). -/
def Obligations.ResetLeavesTheResetState : Prop :=
  (∀ (s : State) (rest : List HostEvent), s.host = .reset :: rest →
    step s = .next { State.reset with config := s.config, host := rest, delivered := s.delivered }) ∧
  (State.reset.initd = false ∧ State.reset.fault = false ∧ State.reset.dvalid = false ∧ State.reset.cause = 0#4 ∧
    State.reset.finfo = 0#32 ∧ State.reset.nreg = 0#9 ∧ State.reset.cur = 0#8 ∧ State.reset.skip = 0#32 ∧
    State.reset.lcnt = 0#17 ∧ State.reset.dcnt = 0#5 ∧ State.reset.lidx = 0#17 ∧ State.reset.rnd = 0#16 ∧
    State.reset.buf = [] ∧ State.reset.ll = [] ∧ State.reset.dig = [] ∧ State.reset.rsp = none ∧
    faultPin State.reset = false ∧ cmdReady State.reset = true)

/-- R76: a command that ends answers once: the code of its failure, 1 to 13, or on success 0 where it returns no
value. -/
def Obligations.EveryCommandAnswersOnce : Prop :=
  ∀ (i : Instr) (s t : State), exec i s = .next t →
    ∃ r, t.rsp = some r ∧
      (r.err = true → 1 ≤ r.data.toNat ∧ r.data.toNat ≤ 13) ∧
      (r.err = false → returnsNoValue i = true → r.data = 0#32)

/-! ## Faults (spec/60_exceptions.md) -/

/-- R160: fault entry records the first fault and answers its code, and changes nothing else; while a fault is recorded it
changes no register. The pin follows `STATUS.FAULT`. The first fault is kept until a successful `INIT` (or reset). -/
def Obligations.FaultEntryRecordsTheFirstFault : Prop :=
  (∀ (c : Cause) (info : Word) (s : State),
    (s.fault = false → raise c info s = .next (trapped (causeCode c) info s)) ∧
    (s.fault = true → raise c info s = .next (rejected (causeCode c) s))) ∧
  (∀ s : State, faultPin s = s.fault) ∧
  (∀ (w : Word) (s t : State), s.fault = true → execWord w s = .next t →
    (t.fault = true ∧ t.cause = s.cause ∧ t.finfo = s.finfo) ∨
    (∃ n, decode w = .ok (.init n) ∧ 1 ≤ n.toNat ∧ n.toNat ≤ 256))

/-- R164: while faulted every legal command but `NOP`, `INIT`, `RDSR` answers `(1, 13)` and changes no state; the registers
are frozen against every word but a successful `INIT`; the code 13 is never recorded. -/
def Obligations.FaultedCoreRefuses : Prop :=
  (∀ i : Instr, acceptedWhileFaulted i = false → RefusedWhileFaulted i) ∧
  (∀ (w : Word) (s t : State), s.fault = true → execWord w s = .next t →
    t.toArch = s.toArch ∨ (∃ n, decode w = .ok (.init n) ∧ 1 ≤ n.toNat ∧ n.toNat ≤ 256)) ∧
  (∀ (w : Word) (s t : State), s.cause ≠ 13#4 → execWord w s = .next t → t.cause ≠ 13#4)

/-- R152: on a core that is not faulted and has no buffer, every command that needs a buffer fails with `E_NOINIT`, the
command word recorded (R150); `NOP`, `INIT`, `RDSR`, `HEXB`, `HEXD` do not. -/
def Obligations.CommandWithoutBufferFaults : Prop :=
  ∀ (i : Instr) (s : State), s.fault = false → s.initd = false →
    (needsNoBuffer i = false → exec i s = .next (trapped 2#4 (encode i) s)) ∧
    (needsNoBuffer i = true → ∃ t, exec i s = .next t ∧ t.rsp ≠ some ⟨true, 2#32⟩)

/-- R164, R167: a recorded fault freezes every register; only a successful `INIT` and reset change one. -/
def Obligations.FaultedStateIsFrozen : Prop :=
  ∀ s t : State, s.fault = true → step s = .next t →
    t.toArch = s.toArch ∨
    (∃ rest, s.host = .reset :: rest) ∨
    (∃ w rest n, s.host = .command w :: rest ∧ decode w = .ok (.init n) ∧ 1 ≤ n.toNat ∧ n.toNat ≤ 256)

/-! ## The commands -/

/-- R140: `NOP` is the all-zero word, is accepted in every state and changes none. -/
def Obligations.NopDoesNothing : Prop :=
  EncodedAs 0x00#8 false false (fun _ _ => .nop) ∧ (∀ s : State, exec .nop s = .next (answered 0#32 s))

/-- R141: `INIT n` with a legal size leaves a fresh computation whatever the state was; with an illegal one it fails
with `E_BADN` and changes nothing but, if no fault was recorded, the fault registers. No other command writes `NREG` or
clears a fault. With `LCNT` and `DVALID` 0 no entry of the list or of the digest is architectural (R27, R28). -/
def Obligations.InitBeginsAFreshComputation : Prop :=
  EncodedAs 0x01#8 false true (fun _ n => .init n) ∧
  (∀ (i : Instr) (s t : State), (∀ n, i ≠ .init n) → exec i s = .next t →
    t.nreg = s.nreg ∧ (s.fault = true → t.fault = true)) ∧
  ∀ (n : Half) (s : State),
    (1 ≤ n.toNat → n.toNat ≤ 256 →
      ∃ list digest, exec (.init n) s = .next
        { s with
          toArch :=
            { Arch.reset with
              nreg := BitVec.ofNat 9 n.toNat
              buf := (List.range n.toNat).map (BitVec.ofNat 8)
              ll := list, dig := digest, initd := true }
          rsp := some ⟨false, 0#32⟩ }) ∧
    (n.toNat = 0 ∨ 256 < n.toNat → s.fault = false → exec (.init n) s = .next (trapped 3#4 (n.setWidth 32) s)) ∧
    (n.toNat = 0 ∨ 256 < n.toNat → s.fault = true → exec (.init n) s = .next (rejected 3#4 s))

/-- R142, R33: `RDSR` reads the twelve registers of the table in every state and fails with `E_BADSR` on every other
number. -/
def Obligations.RdsrReadsTheStatusRegisters : Prop :=
  EncodedAs 0x02#8 true false (fun r _ => .rdsr r) ∧
  ∀ s : State,
    exec (.rdsr 0#8) s = .next (answered
      (0#29 ++ BitVec.ofBool s.dvalid ++ BitVec.ofBool s.fault ++ BitVec.ofBool s.initd) s) ∧
    exec (.rdsr 1#8) s = .next (answered (s.cause.setWidth 32) s) ∧
    exec (.rdsr 2#8) s = .next (answered s.finfo s) ∧
    exec (.rdsr 3#8) s = .next (answered (s.nreg.setWidth 32) s) ∧
    exec (.rdsr 4#8) s = .next (answered (s.cur.setWidth 32) s) ∧
    exec (.rdsr 5#8) s = .next (answered s.skip s) ∧
    exec (.rdsr 6#8) s = .next (answered (s.lcnt.setWidth 32) s) ∧
    exec (.rdsr 7#8) s = .next (answered (s.dcnt.setWidth 32) s) ∧
    exec (.rdsr 8#8) s = .next (answered (s.lidx.setWidth 32) s) ∧
    exec (.rdsr 9#8) s = .next (answered (s.rnd.setWidth 32) s) ∧
    exec (.rdsr 10#8) s = .next (answered (BitVec.ofNat 32 s.config.ldepth) s) ∧
    exec (.rdsr 11#8) s = .next (answered 0x4B4E0001#32 s) ∧
    (∀ r : Byte, 12 ≤ r.toNat → s.fault = false → exec (.rdsr r) s = .next (trapped 12#4 (r.setWidth 32) s)) ∧
    (∀ r : Byte, 12 ≤ r.toNat → s.fault = true → exec (.rdsr r) s = .next (rejected 12#4 s))

/-- R93, R90: `REV c, l` reverses the `l` entries from `c` around the ring and drops the digest; a bad start position
is reported before a bad length. -/
def Obligations.RevReversesTheRange : Prop :=
  EncodedAs 0x10#8 true true (fun c l => .rev c l) ∧
  (∀ (c : Byte) (l : Half), NeedsBuffer (.rev c l)) ∧
  ∀ (c : Byte) (l : Half) (s : State), s.ready →
    (s.Inv → c.toNat < bufSize s → l.toNat ≤ bufSize s →
      ∃ b digest, IsReversal (bufSize s) c.toNat l.toNat s.buf b ∧
        exec (.rev c l) s = .next
          { s with buf := b, dvalid := false, dcnt := 0#5, dig := digest, rsp := some ⟨false, 0#32⟩ }) ∧
    (bufSize s ≤ c.toNat → exec (.rev c l) s = .next (trapped 6#4 (c.setWidth 32) s)) ∧
    (c.toNat < bufSize s → bufSize s < l.toNat → exec (.rev c l) s = .next (trapped 4#4 (l.setWidth 32) s))

/-- R94: `RDBUF i` answers `BUF[i]`, or fails with `E_INDEX`. -/
def Obligations.RdbufReadsTheEntry : Prop :=
  EncodedAs 0x11#8 true false (fun i _ => .rdbuf i) ∧
  (∀ i : Byte, NeedsBuffer (.rdbuf i)) ∧
  ∀ (i : Byte) (s : State), s.ready →
    (s.Inv → i.toNat < bufSize s →
      ∃ v, s.buf[i.toNat]? = some v ∧ exec (.rdbuf i) s = .next (answered (v.setWidth 32) s)) ∧
    (bufSize s ≤ i.toNat → exec (.rdbuf i) s = .next (trapped 7#4 (i.setWidth 32) s))

/-- R100: `LCLR` empties the list and changes nothing else, the digest kept. With `LCNT = 0` no entry of the list is
architectural (R27). -/
def Obligations.LclrEmptiesTheList : Prop :=
  EncodedAs 0x20#8 false false (fun _ _ => .lclr) ∧ NeedsBuffer .lclr ∧
  (∀ s : State, s.ready →
    ∃ list, exec .lclr s = .next { s with ll := list, lcnt := 0#17, rsp := some ⟨false, 0#32⟩ })

/-- R101: `LPUSH l` stores `l` at index `LCNT`, whatever `N` is, and counts it; on a full list nothing is stored. -/
def Obligations.LpushAppendsTheLength : Prop :=
  EncodedAs 0x21#8 false true (fun _ l => .lpush l) ∧
  (∀ l : Half, NeedsBuffer (.lpush l)) ∧
  ∀ (l : Half) (s : State), s.ready →
    (s.Inv → s.lcnt.toNat < s.config.ldepth →
      ∃ list cnt, list.length = s.lcnt.toNat + 1 ∧ list[s.lcnt.toNat]? = some l ∧
        (∀ j, j < s.lcnt.toNat → list[j]? = s.ll[j]?) ∧ cnt.toNat = s.lcnt.toNat + 1 ∧
        exec (.lpush l) s = .next { s with ll := list, lcnt := cnt, rsp := some ⟨false, 0#32⟩ }) ∧
    (s.lcnt.toNat = s.config.ldepth → exec (.lpush l) s = .next (trapped 8#4 (l.setWidth 32) s))

/-- R102: `RDLL j` answers `LL[j]`, or fails with `E_INDEX`. -/
def Obligations.RdllReadsTheEntry : Prop :=
  EncodedAs 0x22#8 false true (fun _ j => .rdll j) ∧
  (∀ j : Half, NeedsBuffer (.rdll j)) ∧
  ∀ (j : Half) (s : State), s.ready →
    (s.Inv → j.toNat < s.lcnt.toNat →
      ∃ v, s.ll[j.toNat]? = some v ∧ exec (.rdll j) s = .next (answered (v.setWidth 32) s)) ∧
    (s.lcnt.toNat ≤ j.toNat → exec (.rdll j) s = .next (trapped 7#4 (j.setWidth 32) s))

/-- R106, R105: `STEP l` reverses at the cursor, then advances it by the exact sum of cursor, length and skip size
modulo `N`, then counts the step; the oversize check comes before the overflow check, both before any effect. -/
def Obligations.StepCommandProcessesOneLength : Prop :=
  EncodedAs 0x23#8 false true (fun _ l => .step l) ∧
  (∀ l : Half, NeedsBuffer (.step l)) ∧
  ∀ (l : Half) (s : State), s.ready →
    (s.Inv → l.toNat ≤ bufSize s → s.skip ≠ 0xFFFFFFFF#32 →
      ∃ b c k digest, IsReversal (bufSize s) s.cur.toNat l.toNat s.buf b ∧
        c.toNat = (s.cur.toNat + l.toNat + s.skip.toNat) % bufSize s ∧ k.toNat = s.skip.toNat + 1 ∧
        exec (.step l) s = .next
          { s with
            buf := b, cur := c, skip := k, dvalid := false, dcnt := 0#5, dig := digest
            rsp := some ⟨false, 0#32⟩ }) ∧
    (bufSize s < l.toNat → exec (.step l) s = .next (trapped 4#4 (l.setWidth 32) s)) ∧
    (l.toNat ≤ bufSize s → s.skip = 0xFFFFFFFF#32 →
      exec (.step l) s = .next (trapped 9#4 0xFFFFFFFF#32 s))

/-- R108, R109: `RUN r` whose entries fit and whose steps can be counted is the left-fold of the per-length step over
`r` copies of the list; the sequencer ends at `(r, 0)`, the skip size has grown by `r * LCNT`, the digest is dropped and
the list is kept. That no digest byte is left is log entry 4's form of R28. -/
def Obligations.RunIsTheFoldOverTheRounds : Prop :=
  EncodedAs 0x24#8 false true (fun _ r => .run r) ∧
  (∀ r : Half, NeedsBuffer (.run r)) ∧
  ∀ (r : Half) (s : State), s.Inv → s.ready →
    (∀ l ∈ rounds r.toNat s.ll, l.toNat ≤ bufSize s) → s.skip.toNat + r.toNat * s.lcnt.toNat < 2 ^ 32 →
    ∃ b c k, scramble (bufSize s) (scrambleOf s) (rounds r.toNat s.ll) = ⟨b, c.toNat, k.toNat⟩ ∧
      k.toNat = s.skip.toNat + r.toNat * s.lcnt.toNat ∧
      exec (.run r) s = .next
        { s with
          buf := b, cur := c, skip := k, rnd := r, lidx := 0#17
          dvalid := false, dcnt := 0#5, dig := [], rsp := some ⟨false, 0#32⟩ }

/-- R108, R166, R105, R150: `RUN r` that reaches an entry it cannot process, the `m`-th of the `r` copies of the list
counted from 0, stops there: the steps before it are done, that step is not begun, `(RND, LIDX)` name the entry and the
digest is dropped. A length above `N` is `E_OVERSIZE` whatever the skip size; otherwise the skip size is at its top.
That no digest byte is left is log entry 4's form of R28. -/
def Obligations.RunStopsAtTheOffendingEntry : Prop :=
  ∀ (r : Half) (s : State) (m : Nat) (l : Half), s.Inv → s.ready →
    (rounds r.toNat s.ll)[m]? = some l → (∀ x ∈ (rounds r.toNat s.ll).take m, x.toNat ≤ bufSize s) →
    s.skip.toNat + m < 2 ^ 32 → (bufSize s < l.toNat ∨ s.skip.toNat + m = 2 ^ 32 - 1) →
    ∃ b c k, scramble (bufSize s) (scrambleOf s) ((rounds r.toNat s.ll).take m) = ⟨b, c.toNat, k.toNat⟩ ∧
      exec (.run r) s = .next
        (trapped (if bufSize s < l.toNat then 4#4 else 9#4)
          (if bufSize s < l.toNat then l.setWidth 32 else 0xFFFFFFFF#32)
          { s with
            buf := b, cur := c, skip := k
            rnd := BitVec.ofNat 16 (m / s.lcnt.toNat), lidx := BitVec.ofNat 17 (m % s.lcnt.toNat)
            dvalid := false, dcnt := 0#5, dig := [] })

/-- R109: `RUN r` leaves the same `BUF`, `CUR`, `SKIP`, and the same fault if any, as the `STEP` commands of `r` copies
of the list. -/
def Obligations.RunEqualsTheStepsItFlattensTo : Prop :=
  ∀ (r : Half) (s : State), s.Inv → s.ready →
    ∃ t u, exec (.run r) s = .next t ∧ execAll ((rounds r.toNat s.ll).map .step) s = .next u ∧
      t.buf = u.buf ∧ t.cur = u.cur ∧ t.skip = u.skip ∧
      t.fault = u.fault ∧ t.cause = u.cause ∧ t.finfo = u.finfo

/-- R109: `RUN r1` followed by `RUN r2` equals `RUN (r1 + r2)` on `BUF`, `CUR`, `SKIP` when `r1 + r2 <= 65535`. -/
def Obligations.RunsAddUp : Prop :=
  ∀ (r₁ r₂ : Half) (s : State), s.Inv → s.ready → r₁.toNat + r₂.toNat ≤ 65535 →
    ∃ t u, execAll [.run r₁, .run r₂] s = .next t ∧ exec (.run (r₁ + r₂)) s = .next u ∧
      t.buf = u.buf ∧ t.cur = u.cur ∧ t.skip = u.skip

/-- R121, R120: `REDUCE` of a buffer of whole blocks leaves one byte per block, the exclusive-or of its 16 elements;
otherwise it fails with `E_MISALIGNED` and computes nothing. -/
def Obligations.ReduceXorsTheBlocks : Prop :=
  EncodedAs 0x30#8 false false (fun _ _ => .reduce) ∧
  NeedsBuffer .reduce ∧
  ∀ s : State, s.ready →
    (s.Inv → bufSize s % 16 = 0 →
      ∃ d cnt, d.length = bufSize s / 16 ∧ cnt.toNat = bufSize s / 16 ∧
        (∀ i, i < bufSize s / 16 → d[i]? = some (xorOfBlock s.buf i)) ∧
        exec .reduce s = .next { s with dig := d, dcnt := cnt, dvalid := true, rsp := some ⟨false, 0#32⟩ }) ∧
    (bufSize s % 16 ≠ 0 → exec .reduce s = .next (trapped 5#4 (s.nreg.setWidth 32) s))

/-- R123: `RDDIG i` answers the reduction of block `i` of the present buffer; without a valid digest it fails with
`E_NODIGEST`, checked before the index. -/
def Obligations.RddigReadsThePresentDigest : Prop :=
  EncodedAs 0x31#8 true false (fun i _ => .rddig i) ∧
  (∀ i : Byte, NeedsBuffer (.rddig i)) ∧
  ∀ (i : Byte) (s : State), s.ready →
    (s.Inv → s.dvalid = true → i.toNat < s.dcnt.toNat →
      s.dig[i.toNat]? = some (xorOfBlock s.buf i.toNat) ∧
      exec (.rddig i) s = .next (answered ((xorOfBlock s.buf i.toNat).setWidth 32) s)) ∧
    (s.dvalid = true → s.dcnt.toNat ≤ i.toNat → exec (.rddig i) s = .next (trapped 7#4 (i.setWidth 32) s)) ∧
    (s.dvalid = false → exec (.rddig i) s = .next (trapped 10#4 (i.setWidth 32) s))

/-- R133, R130: `HEXB b` answers the two characters of the byte, the more significant nibble's in bits 15..8, with or
without a buffer. The codes are the table of R131, ASCII by the spec's own presumption (log entry 9). -/
def Obligations.HexbEncodesTheByte : Prop :=
  EncodedAs 0x40#8 true false (fun b _ => .hexb b) ∧
  (∀ b : Byte, RefusedWhileFaulted (.hexb b)) ∧
  ∀ (b : Byte) (s : State), s.fault = false →
    exec (.hexb b) s = .next
      (answered (0#16 ++ hexCodes.getD (b.toNat / 16) 0#8 ++ hexCodes.getD (b.toNat % 16) 0#8) s)

/-- R134, R131: `HEXD` of two listed characters answers their byte, with or without a buffer; of any other pair it
fails with `E_BADHEX`. The codes are the table of R131, ASCII by the spec's own presumption (log entry 9). -/
def Obligations.HexdDecodesExactlyTheListedPairs : Prop :=
  EncodedAs 0x41#8 false true (fun _ h => .hexd h) ∧
  (∀ h : Half, RefusedWhileFaulted (.hexd h)) ∧
  (∀ (d e : Nat) (h l : Byte) (s : State), s.fault = false → hexCodes[d]? = some h → hexCodes[e]? = some l →
    exec (.hexd (h ++ l)) s = .next (answered (BitVec.ofNat 32 (16 * d + e)) s)) ∧
  (∀ (h l : Byte) (s : State), s.fault = false → (h ∉ hexCodes ∨ l ∉ hexCodes) →
    exec (.hexd (h ++ l)) s = .next (trapped 11#4 (0#16 ++ h ++ l) s))

/-- R135: `RDHEX j` answers character `j` of the digest's hex string; validity is checked before the index. The
codes are the table of R131, ASCII by the spec's own presumption (log entry 9). -/
def Obligations.RdhexReadsTheCharacter : Prop :=
  EncodedAs 0x42#8 true false (fun j _ => .rdhex j) ∧
  (∀ j : Byte, NeedsBuffer (.rdhex j)) ∧
  ∀ (j : Byte) (s : State), s.ready →
    (s.Inv → s.dvalid = true → j.toNat < 2 * s.dcnt.toNat →
      ∃ b, s.dig[j.toNat / 2]? = some b ∧
        exec (.rdhex j) s = .next (answered
          ((hexCodes.getD (if j.toNat % 2 = 0 then b.toNat / 16 else b.toNat % 16) 0#8).setWidth 32) s)) ∧
    (s.dvalid = true → 2 * s.dcnt.toNat ≤ j.toNat → exec (.rdhex j) s = .next (trapped 7#4 (j.setWidth 32) s)) ∧
    (s.dvalid = false → exec (.rdhex j) s = .next (trapped 10#4 (j.setWidth 32) s))

/-- R143, R14: `CKSUM` answers the exact product of the first two elements, which are distinct values below `N`, at
most 64770; a buffer
of one element has no index 1. -/
def Obligations.CksumMultipliesTheFirstTwo : Prop :=
  EncodedAs 0x50#8 false false (fun _ _ => .cksum) ∧
  NeedsBuffer .cksum ∧
  ∀ s : State, s.ready →
    (s.Inv → 2 ≤ bufSize s →
      ∃ x y v, s.buf[0]? = some x ∧ s.buf[1]? = some y ∧ x ≠ y ∧ x.toNat < bufSize s ∧ y.toNat < bufSize s ∧
        v.toNat = x.toNat * y.toNat ∧ v.toNat ≤ 64770 ∧ exec .cksum s = .next (answered v s)) ∧
    (bufSize s < 2 → exec .cksum s = .next (trapped 7#4 1#32 s))

/-! ## Laws of the components -/

/-- R92: the six laws of `Reverse(c, L)`, of which the spec marks the third and fourth as derived by itself. -/
def Obligations.ReversalLaws : Prop :=
  ∀ (n c l : Nat) (old new : List Byte), reverse n old c l = some new →
    new.Perm old ∧
    (l = 0 → new = old) ∧
    (l = 1 → new = old) ∧
    reverse n new c l = some old ∧
    (l = n → ∀ k, k < n → new[(c + k) % n]? = old[(c + (n - 1 - k)) % n]?) ∧
    (c + l ≤ n →
      (∀ k, k < l → new[c + k]? = old[c + (l - 1 - k)]?) ∧
      (∀ p, p < c ∨ (c + l ≤ p ∧ p < n) → new[p]? = old[p]?)) ∧
    (n < c + l →
      (∀ k, k < l → (c + k) % n = if k < n - c then c + k else k - (n - c)) ∧
      (∀ p, c + l - n ≤ p → p < c → new[p]? = old[p]?))

/-- R91: the `L div 2` swaps give what the copying loop of R90 gives; each swap is of two distinct positions, and no
position is touched twice. The spec marks the rule as derived from R90. -/
def Obligations.ReversalBySwapsIsTheReversal : Prop :=
  ∀ (n c l : Nat) (old : List Byte), c < n → l ≤ n → old.length = n →
    reverse n old c l = some (reverseBySwaps n c l old) ∧
    (∀ k, k < l / 2 → (c + k) % n ≠ (c + (l - 1 - k)) % n) ∧
    (∀ k m, k < m → m < l / 2 →
      (c + k) % n ≠ (c + m) % n ∧ (c + k) % n ≠ (c + (l - 1 - m)) % n ∧
      (c + (l - 1 - k)) % n ≠ (c + m) % n ∧ (c + (l - 1 - k)) % n ≠ (c + (l - 1 - m)) % n)

/-- R122: the reduction of a block is the same in any order of its elements and in any grouping of two-input gates over
them; a block's reduction depends on its own 16 elements only. The spec marks the rule as general knowledge (G3). -/
def Obligations.BlockReductionIsOrderFree : Prop :=
  (∀ xs ys : List Byte, xs.Perm ys → xs.foldl (· ^^^ ·) 0#8 = ys.foldl (· ^^^ ·) 0#8) ∧
  (∀ (buf : List Byte) (i : Nat) (gates : XorTree),
    gates.leaves.Perm ((buf.drop (16 * i)).take 16) → gates.root = block buf i) ∧
  (∀ (a b : List Byte) (i : Nat), (∀ k, k < 16 → a[16 * i + k]? = b[16 * i + k]?) → block a i = block b i)

/-- R136, on the functions of the encoder: decoding and encoding are inverse, encoding is injective, and its image is the
pairs of listed codes. The spec marks the rule as derived, and the codes as its own presumption (log entry 9). -/
def Obligations.HexFunctionsAreInverse : Prop :=
  (∀ b : Byte, unhex2 (hex2 b).1 (hex2 b).2 = some b) ∧
  (∀ (h l b : Byte), unhex2 h l = some b → hex2 b = (h, l)) ∧
  (∀ a b : Byte, hex2 a = hex2 b → a = b) ∧
  (∀ h l : Byte, (∃ b, hex2 b = (h, l)) ↔ h ∈ hexCodes ∧ l ∈ hexCodes)

/-- R136, on the commands: decoding what `HEXB` answers gives the byte back, and a pair that `HEXD` decodes is what
`HEXB` answers for the decoded byte (codes: log entry 9). -/
def Obligations.HexCommandsRoundTrip : Prop :=
  (∀ (b : Byte) (s : State), s.fault = false →
    ∃ v : Word, exec (.hexb b) s = .next (answered v s) ∧
      exec (.hexd (v.setWidth 16)) s = .next (answered (b.setWidth 32) s)) ∧
  (∀ (h : Half) (b : Byte) (s : State), s.fault = false →
    exec (.hexd h) s = .next (answered (b.setWidth 32) s) →
    exec (.hexb b) s = .next (answered (h.setWidth 32) s))

/-! ## Invariants and progress (spec/10_state.md R36, spec/70_reset_and_hazards.md R189) -/

/-- R36: the invariants hold after reset. -/
def Obligations.InvariantsHoldAtReset : Prop := State.reset.Inv

/-- R36: every step keeps the invariants, from every state that has them: the buffer a permutation of `0..N-1`, the
cursor in it, the list in its memory, the fault registers consistent, a valid digest that of the present buffer. One
clause of the list's invariant (no fault recorded, so `LIDX = 0`) is the model's strengthening (log entry 11). -/
def Obligations.StepKeepsTheInvariants : Prop :=
  ∀ s t : State, s.Inv → step s = .next t → t.Inv

/-- R189, R75: from every state that has the invariants a step answers a next state, so the model never stops; a word
offered to the idle core is taken and answered. The invariants have a clause of the model's (log entry 11), and the list
of the host's actions is the model's choice (log entry 2). -/
def Obligations.EveryCommandIsAnswered : Prop :=
  ∀ s : State, s.Inv →
    (∃ t, step s = .next t) ∧
    (∀ w rest, s.rsp = none → s.host = .command w :: rest →
      ∃ t r, step s = .next t ∧ t.rsp = some r ∧ t.host = rest ∧ t.delivered = s.delivered)

/-- R32: no step changes the depth of the list memory, and what the host has received stays received. The
record of it is the model's own field (log entry 3). -/
def Obligations.StepKeepsConfigurationAndHistory : Prop :=
  ∀ s t : State, step s = .next t → t.config = s.config ∧ s.delivered <+: t.delivered

/-! ## Frames -/

/-- Which commands may change which register: those of R20's column "written by", and beside them those that clear
`DCNT` with `DVALID` (R28, R29). The lists `dig` and `ll` change also where they are emptied because their entries are no
longer architectural (`dig` under `INIT`, `REV`, `STEP`, `RUN`, `ll` under `INIT`, `LCLR`), the model's choice (log entry 4).
`FAULT`, `CAUSE` and `FINFO` change by `INIT` or by the entry of a first fault only. -/
def Obligations.RegistersAreWrittenAsTabled : Prop :=
  ∀ (i : Instr) (s t : State), exec i s = .next t →
    (writesBuffer i = false → t.buf = s.buf) ∧
    (writesPosition i = false → t.cur = s.cur ∧ t.skip = s.skip) ∧
    (writesSequencer i = false → t.rnd = s.rnd ∧ t.lidx = s.lidx) ∧
    (writesList i = false → t.lcnt = s.lcnt ∧ t.ll = s.ll) ∧
    (writesDigest i = false → t.dig = s.dig ∧ t.dcnt = s.dcnt ∧ t.dvalid = s.dvalid) ∧
    ((∀ n, i ≠ .init n) → t.nreg = s.nreg ∧ t.initd = s.initd) ∧
    ((∀ n, i ≠ .init n) →
      (t.fault = s.fault ∧ t.cause = s.cause ∧ t.finfo = s.finfo) ∨
      (s.fault = false ∧ t.fault = true ∧ t.rsp = some ⟨true, t.cause.setWidth 32⟩))

/-- The commands that only read (`NOP`, `RDSR`, `RDBUF`, `RDLL`, `RDDIG`, `HEXB`, `HEXD`, `RDHEX`, `CKSUM`) leave
every storage entry and register but the fault registers, and those too when they succeed (R55). -/
def Obligations.ReadCommandsFrame : Prop :=
  ∀ (i : Instr) (s t : State), onlyReads i = true → exec i s = .next t →
    t = { s with fault := t.fault, cause := t.cause, finfo := t.finfo, rsp := t.rsp } ∧
    (∀ r, t.rsp = some r → r.err = false → t.toArch = s.toArch)

/-- R55 for the five direct reads, and R133, R134, R140, R143 for `HEXB`, `HEXD`, `NOP`, `CKSUM`, which write no state
either: a success repeated answers the same and leaves the state as it is. -/
def Obligations.SuccessfulReadsAreIdempotent : Prop :=
  ∀ (i : Instr) (s t : State) (r : Response), onlyReads i = true → exec i s = .next t → t.rsp = some r →
    r.err = false → exec i t = .next t

/-- What `REV` leaves: every register but the digest's and the fault registers, and every buffer entry outside the `l`
ring positions from `c` (R93, R90). -/
def Obligations.RevFrame : Prop :=
  ∀ (c : Byte) (l : Half) (s t : State), exec (.rev c l) s = .next t →
    t = { s with
          buf := t.buf, dvalid := t.dvalid, dcnt := t.dcnt, dig := t.dig
          fault := t.fault, cause := t.cause, finfo := t.finfo, rsp := t.rsp } ∧
    (∀ p, (∀ k, k < l.toNat → p ≠ ringIndex (bufSize s) c.toNat k) → t.buf[p]? = s.buf[p]?)

/-- What `STEP` leaves: every register but cursor, skip size, the digest's and the fault registers, and every buffer
entry outside the `l` ring positions from the old cursor (R106, R105). -/
def Obligations.StepCommandFrame : Prop :=
  ∀ (l : Half) (s t : State), exec (.step l) s = .next t →
    t = { s with
          buf := t.buf, cur := t.cur, skip := t.skip, dvalid := t.dvalid, dcnt := t.dcnt, dig := t.dig
          fault := t.fault, cause := t.cause, finfo := t.finfo, rsp := t.rsp } ∧
    (∀ p, (∀ k, k < l.toNat → p ≠ ringIndex (bufSize s) s.cur.toNat k) → t.buf[p]? = s.buf[p]?)

/-- What `RUN` leaves, whether it succeeds or stops part-way: the list and its count, the size, `INITD` and the ports'
history (R108, R61). -/
def Obligations.RunFrame : Prop :=
  ∀ (r : Half) (s t : State), exec (.run r) s = .next t →
    t = { s with
          buf := t.buf, cur := t.cur, skip := t.skip, rnd := t.rnd, lidx := t.lidx
          dvalid := t.dvalid, dcnt := t.dcnt, dig := t.dig
          fault := t.fault, cause := t.cause, finfo := t.finfo, rsp := t.rsp } ∧
    t.buf.length = s.buf.length

/-- What `LCLR` and `LPUSH` leave: everything but the list, its count and the fault registers; `LPUSH` leaves every
entry of the list (R100, R101, R52). -/
def Obligations.ListCommandsFrame : Prop :=
  ∀ (i : Instr) (s t : State), (i = .lclr ∨ ∃ l, i = .lpush l) → exec i s = .next t →
    t = { s with
          ll := t.ll, lcnt := t.lcnt, fault := t.fault, cause := t.cause, finfo := t.finfo, rsp := t.rsp } ∧
    (∀ l, i = .lpush l → ∀ j, j < s.ll.length → t.ll[j]? = s.ll[j]?)

/-- What `REDUCE` leaves: everything but the digest's and the fault registers (R121). -/
def Obligations.ReduceFrame : Prop :=
  ∀ s t : State, exec .reduce s = .next t →
    t = { s with
          dig := t.dig, dcnt := t.dcnt, dvalid := t.dvalid
          fault := t.fault, cause := t.cause, finfo := t.finfo, rsp := t.rsp }

/-- What `INIT` leaves: it rewrites every register of the core, and nothing outside it; a failing one leaves every
register but the fault registers (R141). -/
def Obligations.InitFrame : Prop :=
  ∀ (n : Half) (s t : State), exec (.init n) s = .next t →
    t = { s with toArch := t.toArch, rsp := t.rsp } ∧
    (∀ r, t.rsp = some r → r.err = true →
      t = { s with fault := t.fault, cause := t.cause, finfo := t.finfo, rsp := t.rsp })

/-- R186, R29: a command that may change the buffer and succeeds leaves no valid digest, and neither does a `RUN` that
gets past the decode order and then faults. -/
def Obligations.BufferWritersDropTheDigest : Prop :=
  (∀ (i : Instr) (s t : State) (r : Response), writesBuffer i = true → exec i s = .next t → t.rsp = some r →
    r.err = false → t.dvalid = false ∧ t.dcnt = 0#5) ∧
  (∀ (n : Half) (s t : State), s.ready → exec (.run n) s = .next t → t.dvalid = false ∧ t.dcnt = 0#5)

/-! ## Runs (spec/70_reset_and_hazards.md R191) -/

/-- R7, R35, R191: what a command does to the registers, and its response, depend on the registers and the depth only,
not on what stands at the ports or on what happened before. -/
def Obligations.CommandsDependOnTheRegistersOnly : Prop :=
  ∀ (i : Instr) (s u t : State), u.toArch = s.toArch → u.config = s.config → exec i s = .next t →
    ∃ v, exec i u = .next v ∧ v.toArch = t.toArch ∧ v.rsp = t.rsp

/-- R191, R189, R58: a run starts with the invariants and no fault recorded, and from every state with the invariants
every run ends: one response for each word, in order, and a final state that is idle and has the invariants (their clause
of log entry 11 included). The run of `a` followed by `b` is the run of `b` from where the run of `a` ended. -/
def Obligations.EveryRunHasItsResult : Prop :=
  (∀ s : State, startsRun s → s.Inv ∧ s.fault = false ∧ s.rsp = none) ∧
  (∀ (words : List Word) (s : State), s.Inv → s.rsp = none →
    ∃ x, runWords words s = some x ∧ x.responses.length = words.length ∧ x.final.Inv ∧ x.final.rsp = none) ∧
  (∀ (a b : List Word) (s : State) (x y : RunResult), runWords a s = some x → runWords b x.final = some y →
    runWords (a ++ b) s = some ⟨x.responses ++ y.responses, y.final⟩)

/-- R191: for a run that starts with no fault recorded, it succeeded exactly when no fault was recorded after any of its
words; a run that ends with a fault recorded did not succeed. -/
def Obligations.RunSucceedsWhenNoFaultIsRecorded : Prop :=
  ∀ (words : List Word) (s : State) (x : RunResult), s.fault = false → runWords words s = some x →
    (runSucceeded x = true ↔
      ∀ (k : Nat) (y : RunResult), runWords (words.take k) s = some y → y.final.fault = false) ∧
    (x.final.fault = true → runSucceeded x = false)

/-- R191, R78, R190: the steps that take the host's actions give the result of the run that the actions are, the registers
as at its end and its responses received after those of before; actions that `rst` cuts, or whose last response is not
transferred, have no result. The host's actions and the received responses are the model's own lists (log entries 2 and
3). -/
def Obligations.StepsGiveTheResultOfTheRun : Prop :=
  (∀ (s : State) (x : RunResult), s.rsp = none → runResult s.host s = some x →
    ∃ k t, Host.Core.run core k s = .next t ∧ t.host = [] ∧ t.rsp = none ∧
      t.toArch = x.final.toArch ∧ t.delivered = s.delivered ++ x.responses) ∧
  (∀ (before after : List HostEvent) (s : State), runResult (before ++ .reset :: after) s = none) ∧
  (∀ (before : List HostEvent) (w : Word) (s : State), runResult (before ++ [.command w]) s = none)
end

