-- ==== Sys2Proof/Laws/Decode.lean ====
section
/-! SUPPORT. The bits of a command word and its fields (spec/30_encoding.md R70), and when the decoder's operand forms
accept (R71). -/

namespace Sys2Proof

/-- The fields of a word made of three fields are those fields. -/
theorem fieldsOf_wordOf (f : Fields) : fieldsOf (wordOf f) = f := by
  obtain ⟨op, a, imm⟩ := f
  simp only [fieldsOf, wordOf, opField, aField, immField, Fields.mk.injEq]
  refine ⟨?_, ?_, ?_⟩ <;> apply BitVec.eq_of_getLsbD_eq <;> intro i hi <;>
    simp only [BitVec.getLsbD_extractLsb', BitVec.getLsbD_append] <;> grind

/-- A word is made of its fields: no bit is dropped. -/
theorem wordOf_fieldsOf (w : Word) : wordOf (fieldsOf w) = w := by
  apply BitVec.eq_of_getLsbD_eq
  intro i hi
  simp only [fieldsOf, wordOf, opField, aField, immField, BitVec.getLsbD_extractLsb', BitVec.getLsbD_append]
  grind

theorem noOperand_ok {f : Fields} {i j : Instr} :
    noOperand f i = .ok j ↔ f.a = 0#8 ∧ f.imm = 0#16 ∧ j = i := by
  unfold noOperand; split <;> grind

theorem aOperand_ok {f : Fields} {i : Byte → Instr} {j : Instr} :
    aOperand f i = .ok j ↔ f.imm = 0#16 ∧ j = i f.a := by
  unfold aOperand; split <;> grind

theorem immOperand_ok {f : Fields} {i : Half → Instr} {j : Instr} :
    immOperand f i = .ok j ↔ f.a = 0#8 ∧ j = i f.imm := by
  unfold immOperand; split <;> grind

end Sys2Proof
end

