-- ==== Sys2Proof/Laws/State.lean ====
section
/-! SUPPORT. The small lemmas of every update of the state: one per field, each true by unfolding, so that no later proof
unfolds a record update. -/

namespace Sys2Proof.Machine

/-! ### `answered` -/

@[simp] theorem answered_buf (v : Word) (s : State) : (answered v s).buf = s.buf := rfl
@[simp] theorem answered_nreg (v : Word) (s : State) : (answered v s).nreg = s.nreg := rfl
@[simp] theorem answered_cur (v : Word) (s : State) : (answered v s).cur = s.cur := rfl
@[simp] theorem answered_skip (v : Word) (s : State) : (answered v s).skip = s.skip := rfl
@[simp] theorem answered_ll (v : Word) (s : State) : (answered v s).ll = s.ll := rfl
@[simp] theorem answered_lcnt (v : Word) (s : State) : (answered v s).lcnt = s.lcnt := rfl
@[simp] theorem answered_rnd (v : Word) (s : State) : (answered v s).rnd = s.rnd := rfl
@[simp] theorem answered_lidx (v : Word) (s : State) : (answered v s).lidx = s.lidx := rfl
@[simp] theorem answered_dig (v : Word) (s : State) : (answered v s).dig = s.dig := rfl
@[simp] theorem answered_dcnt (v : Word) (s : State) : (answered v s).dcnt = s.dcnt := rfl
@[simp] theorem answered_initd (v : Word) (s : State) : (answered v s).initd = s.initd := rfl
@[simp] theorem answered_fault (v : Word) (s : State) : (answered v s).fault = s.fault := rfl
@[simp] theorem answered_dvalid (v : Word) (s : State) : (answered v s).dvalid = s.dvalid := rfl
@[simp] theorem answered_cause (v : Word) (s : State) : (answered v s).cause = s.cause := rfl
@[simp] theorem answered_finfo (v : Word) (s : State) : (answered v s).finfo = s.finfo := rfl
@[simp] theorem answered_rsp (v : Word) (s : State) : (answered v s).rsp = some ⟨false, v⟩ := rfl
@[simp] theorem answered_config (v : Word) (s : State) : (answered v s).config = s.config := rfl
@[simp] theorem answered_host (v : Word) (s : State) : (answered v s).host = s.host := rfl
@[simp] theorem answered_delivered (v : Word) (s : State) : (answered v s).delivered = s.delivered := rfl
@[simp] theorem answered_toArch (v : Word) (s : State) : (answered v s).toArch = s.toArch := rfl
@[simp] theorem answered_bufSize (v : Word) (s : State) : bufSize (answered v s) = bufSize s := rfl

/-! ### `rejected` -/

@[simp] theorem rejected_buf (c : BitVec 4) (s : State) : (rejected c s).buf = s.buf := rfl
@[simp] theorem rejected_nreg (c : BitVec 4) (s : State) : (rejected c s).nreg = s.nreg := rfl
@[simp] theorem rejected_cur (c : BitVec 4) (s : State) : (rejected c s).cur = s.cur := rfl
@[simp] theorem rejected_skip (c : BitVec 4) (s : State) : (rejected c s).skip = s.skip := rfl
@[simp] theorem rejected_ll (c : BitVec 4) (s : State) : (rejected c s).ll = s.ll := rfl
@[simp] theorem rejected_lcnt (c : BitVec 4) (s : State) : (rejected c s).lcnt = s.lcnt := rfl
@[simp] theorem rejected_rnd (c : BitVec 4) (s : State) : (rejected c s).rnd = s.rnd := rfl
@[simp] theorem rejected_lidx (c : BitVec 4) (s : State) : (rejected c s).lidx = s.lidx := rfl
@[simp] theorem rejected_dig (c : BitVec 4) (s : State) : (rejected c s).dig = s.dig := rfl
@[simp] theorem rejected_dcnt (c : BitVec 4) (s : State) : (rejected c s).dcnt = s.dcnt := rfl
@[simp] theorem rejected_initd (c : BitVec 4) (s : State) : (rejected c s).initd = s.initd := rfl
@[simp] theorem rejected_fault (c : BitVec 4) (s : State) : (rejected c s).fault = s.fault := rfl
@[simp] theorem rejected_dvalid (c : BitVec 4) (s : State) : (rejected c s).dvalid = s.dvalid := rfl
@[simp] theorem rejected_cause (c : BitVec 4) (s : State) : (rejected c s).cause = s.cause := rfl
@[simp] theorem rejected_finfo (c : BitVec 4) (s : State) : (rejected c s).finfo = s.finfo := rfl
@[simp] theorem rejected_rsp (c : BitVec 4) (s : State) : (rejected c s).rsp = some ⟨true, c.setWidth 32⟩ := rfl
@[simp] theorem rejected_config (c : BitVec 4) (s : State) : (rejected c s).config = s.config := rfl
@[simp] theorem rejected_host (c : BitVec 4) (s : State) : (rejected c s).host = s.host := rfl
@[simp] theorem rejected_delivered (c : BitVec 4) (s : State) : (rejected c s).delivered = s.delivered := rfl
@[simp] theorem rejected_toArch (c : BitVec 4) (s : State) : (rejected c s).toArch = s.toArch := rfl
@[simp] theorem rejected_bufSize (c : BitVec 4) (s : State) : bufSize (rejected c s) = bufSize s := rfl

/-! ### `trapped` -/

@[simp] theorem trapped_buf (c : BitVec 4) (i : Word) (s : State) : (trapped c i s).buf = s.buf := rfl
@[simp] theorem trapped_nreg (c : BitVec 4) (i : Word) (s : State) : (trapped c i s).nreg = s.nreg := rfl
@[simp] theorem trapped_cur (c : BitVec 4) (i : Word) (s : State) : (trapped c i s).cur = s.cur := rfl
@[simp] theorem trapped_skip (c : BitVec 4) (i : Word) (s : State) : (trapped c i s).skip = s.skip := rfl
@[simp] theorem trapped_ll (c : BitVec 4) (i : Word) (s : State) : (trapped c i s).ll = s.ll := rfl
@[simp] theorem trapped_lcnt (c : BitVec 4) (i : Word) (s : State) : (trapped c i s).lcnt = s.lcnt := rfl
@[simp] theorem trapped_rnd (c : BitVec 4) (i : Word) (s : State) : (trapped c i s).rnd = s.rnd := rfl
@[simp] theorem trapped_lidx (c : BitVec 4) (i : Word) (s : State) : (trapped c i s).lidx = s.lidx := rfl
@[simp] theorem trapped_dig (c : BitVec 4) (i : Word) (s : State) : (trapped c i s).dig = s.dig := rfl
@[simp] theorem trapped_dcnt (c : BitVec 4) (i : Word) (s : State) : (trapped c i s).dcnt = s.dcnt := rfl
@[simp] theorem trapped_initd (c : BitVec 4) (i : Word) (s : State) : (trapped c i s).initd = s.initd := rfl
@[simp] theorem trapped_fault (c : BitVec 4) (i : Word) (s : State) : (trapped c i s).fault = true := rfl
@[simp] theorem trapped_dvalid (c : BitVec 4) (i : Word) (s : State) : (trapped c i s).dvalid = s.dvalid := rfl
@[simp] theorem trapped_cause (c : BitVec 4) (i : Word) (s : State) : (trapped c i s).cause = c := rfl
@[simp] theorem trapped_finfo (c : BitVec 4) (i : Word) (s : State) : (trapped c i s).finfo = i := rfl
@[simp] theorem trapped_rsp (c : BitVec 4) (i : Word) (s : State) : (trapped c i s).rsp = some ⟨true, c.setWidth 32⟩ := rfl
@[simp] theorem trapped_config (c : BitVec 4) (i : Word) (s : State) : (trapped c i s).config = s.config := rfl
@[simp] theorem trapped_host (c : BitVec 4) (i : Word) (s : State) : (trapped c i s).host = s.host := rfl
@[simp] theorem trapped_delivered (c : BitVec 4) (i : Word) (s : State) : (trapped c i s).delivered = s.delivered := rfl
@[simp] theorem trapped_bufSize (c : BitVec 4) (i : Word) (s : State) : bufSize (trapped c i s) = bufSize s := rfl

/-! ### `clearDigest` -/

@[simp] theorem clearDigest_buf (s : State) : (clearDigest s).buf = s.buf := rfl
@[simp] theorem clearDigest_nreg (s : State) : (clearDigest s).nreg = s.nreg := rfl
@[simp] theorem clearDigest_cur (s : State) : (clearDigest s).cur = s.cur := rfl
@[simp] theorem clearDigest_skip (s : State) : (clearDigest s).skip = s.skip := rfl
@[simp] theorem clearDigest_ll (s : State) : (clearDigest s).ll = s.ll := rfl
@[simp] theorem clearDigest_lcnt (s : State) : (clearDigest s).lcnt = s.lcnt := rfl
@[simp] theorem clearDigest_rnd (s : State) : (clearDigest s).rnd = s.rnd := rfl
@[simp] theorem clearDigest_lidx (s : State) : (clearDigest s).lidx = s.lidx := rfl
@[simp] theorem clearDigest_dig (s : State) : (clearDigest s).dig = [] := rfl
@[simp] theorem clearDigest_dcnt (s : State) : (clearDigest s).dcnt = 0#5 := rfl
@[simp] theorem clearDigest_initd (s : State) : (clearDigest s).initd = s.initd := rfl
@[simp] theorem clearDigest_fault (s : State) : (clearDigest s).fault = s.fault := rfl
@[simp] theorem clearDigest_dvalid (s : State) : (clearDigest s).dvalid = false := rfl
@[simp] theorem clearDigest_cause (s : State) : (clearDigest s).cause = s.cause := rfl
@[simp] theorem clearDigest_finfo (s : State) : (clearDigest s).finfo = s.finfo := rfl
@[simp] theorem clearDigest_rsp (s : State) : (clearDigest s).rsp = s.rsp := rfl
@[simp] theorem clearDigest_config (s : State) : (clearDigest s).config = s.config := rfl
@[simp] theorem clearDigest_host (s : State) : (clearDigest s).host = s.host := rfl
@[simp] theorem clearDigest_delivered (s : State) : (clearDigest s).delivered = s.delivered := rfl
@[simp] theorem clearDigest_bufSize (s : State) : bufSize (clearDigest s) = bufSize s := rfl

/-! ### `clearFault` -/

@[simp] theorem clearFault_buf (s : State) : (clearFault s).buf = s.buf := rfl
@[simp] theorem clearFault_nreg (s : State) : (clearFault s).nreg = s.nreg := rfl
@[simp] theorem clearFault_cur (s : State) : (clearFault s).cur = s.cur := rfl
@[simp] theorem clearFault_skip (s : State) : (clearFault s).skip = s.skip := rfl
@[simp] theorem clearFault_ll (s : State) : (clearFault s).ll = s.ll := rfl
@[simp] theorem clearFault_lcnt (s : State) : (clearFault s).lcnt = s.lcnt := rfl
@[simp] theorem clearFault_rnd (s : State) : (clearFault s).rnd = s.rnd := rfl
@[simp] theorem clearFault_lidx (s : State) : (clearFault s).lidx = s.lidx := rfl
@[simp] theorem clearFault_dig (s : State) : (clearFault s).dig = s.dig := rfl
@[simp] theorem clearFault_dcnt (s : State) : (clearFault s).dcnt = s.dcnt := rfl
@[simp] theorem clearFault_initd (s : State) : (clearFault s).initd = s.initd := rfl
@[simp] theorem clearFault_fault (s : State) : (clearFault s).fault = false := rfl
@[simp] theorem clearFault_dvalid (s : State) : (clearFault s).dvalid = s.dvalid := rfl
@[simp] theorem clearFault_cause (s : State) : (clearFault s).cause = 0#4 := rfl
@[simp] theorem clearFault_finfo (s : State) : (clearFault s).finfo = 0#32 := rfl
@[simp] theorem clearFault_rsp (s : State) : (clearFault s).rsp = s.rsp := rfl
@[simp] theorem clearFault_config (s : State) : (clearFault s).config = s.config := rfl
@[simp] theorem clearFault_host (s : State) : (clearFault s).host = s.host := rfl
@[simp] theorem clearFault_delivered (s : State) : (clearFault s).delivered = s.delivered := rfl
@[simp] theorem clearFault_bufSize (s : State) : bufSize (clearFault s) = bufSize s := rfl

/-! ### `construct` -/

@[simp] theorem construct_buf (n : Half) (s : State) : (construct n s).buf = identityBuffer n.toNat := rfl
@[simp] theorem construct_nreg (n : Half) (s : State) : (construct n s).nreg = n.setWidth 9 := rfl
@[simp] theorem construct_cur (n : Half) (s : State) : (construct n s).cur = 0#8 := rfl
@[simp] theorem construct_skip (n : Half) (s : State) : (construct n s).skip = 0#32 := rfl
@[simp] theorem construct_ll (n : Half) (s : State) : (construct n s).ll = [] := rfl
@[simp] theorem construct_lcnt (n : Half) (s : State) : (construct n s).lcnt = 0#17 := rfl
@[simp] theorem construct_rnd (n : Half) (s : State) : (construct n s).rnd = 0#16 := rfl
@[simp] theorem construct_lidx (n : Half) (s : State) : (construct n s).lidx = 0#17 := rfl
@[simp] theorem construct_dig (n : Half) (s : State) : (construct n s).dig = [] := rfl
@[simp] theorem construct_dcnt (n : Half) (s : State) : (construct n s).dcnt = 0#5 := rfl
@[simp] theorem construct_initd (n : Half) (s : State) : (construct n s).initd = true := rfl
@[simp] theorem construct_fault (n : Half) (s : State) : (construct n s).fault = false := rfl
@[simp] theorem construct_dvalid (n : Half) (s : State) : (construct n s).dvalid = false := rfl
@[simp] theorem construct_cause (n : Half) (s : State) : (construct n s).cause = 0#4 := rfl
@[simp] theorem construct_finfo (n : Half) (s : State) : (construct n s).finfo = 0#32 := rfl
@[simp] theorem construct_rsp (n : Half) (s : State) : (construct n s).rsp = s.rsp := rfl
@[simp] theorem construct_config (n : Half) (s : State) : (construct n s).config = s.config := rfl
@[simp] theorem construct_host (n : Half) (s : State) : (construct n s).host = s.host := rfl
@[simp] theorem construct_delivered (n : Half) (s : State) : (construct n s).delivered = s.delivered := rfl

/-! ### `hostReset` -/

@[simp] theorem hostReset_buf (s : State) : (hostReset s).buf = [] := rfl
@[simp] theorem hostReset_nreg (s : State) : (hostReset s).nreg = 0#9 := rfl
@[simp] theorem hostReset_cur (s : State) : (hostReset s).cur = 0#8 := rfl
@[simp] theorem hostReset_skip (s : State) : (hostReset s).skip = 0#32 := rfl
@[simp] theorem hostReset_ll (s : State) : (hostReset s).ll = [] := rfl
@[simp] theorem hostReset_lcnt (s : State) : (hostReset s).lcnt = 0#17 := rfl
@[simp] theorem hostReset_rnd (s : State) : (hostReset s).rnd = 0#16 := rfl
@[simp] theorem hostReset_lidx (s : State) : (hostReset s).lidx = 0#17 := rfl
@[simp] theorem hostReset_dig (s : State) : (hostReset s).dig = [] := rfl
@[simp] theorem hostReset_dcnt (s : State) : (hostReset s).dcnt = 0#5 := rfl
@[simp] theorem hostReset_initd (s : State) : (hostReset s).initd = false := rfl
@[simp] theorem hostReset_fault (s : State) : (hostReset s).fault = false := rfl
@[simp] theorem hostReset_dvalid (s : State) : (hostReset s).dvalid = false := rfl
@[simp] theorem hostReset_cause (s : State) : (hostReset s).cause = 0#4 := rfl
@[simp] theorem hostReset_finfo (s : State) : (hostReset s).finfo = 0#32 := rfl
@[simp] theorem hostReset_rsp (s : State) : (hostReset s).rsp = none := rfl
@[simp] theorem hostReset_config (s : State) : (hostReset s).config = s.config := rfl
@[simp] theorem hostReset_host (s : State) : (hostReset s).host = s.host := rfl
@[simp] theorem hostReset_delivered (s : State) : (hostReset s).delivered = s.delivered := rfl

/-! ### `offerWord` -/

@[simp] theorem offerWord_buf (w : Word) (s : State) : (offerWord w s).buf = s.buf := rfl
@[simp] theorem offerWord_nreg (w : Word) (s : State) : (offerWord w s).nreg = s.nreg := rfl
@[simp] theorem offerWord_cur (w : Word) (s : State) : (offerWord w s).cur = s.cur := rfl
@[simp] theorem offerWord_skip (w : Word) (s : State) : (offerWord w s).skip = s.skip := rfl
@[simp] theorem offerWord_ll (w : Word) (s : State) : (offerWord w s).ll = s.ll := rfl
@[simp] theorem offerWord_lcnt (w : Word) (s : State) : (offerWord w s).lcnt = s.lcnt := rfl
@[simp] theorem offerWord_rnd (w : Word) (s : State) : (offerWord w s).rnd = s.rnd := rfl
@[simp] theorem offerWord_lidx (w : Word) (s : State) : (offerWord w s).lidx = s.lidx := rfl
@[simp] theorem offerWord_dig (w : Word) (s : State) : (offerWord w s).dig = s.dig := rfl
@[simp] theorem offerWord_dcnt (w : Word) (s : State) : (offerWord w s).dcnt = s.dcnt := rfl
@[simp] theorem offerWord_initd (w : Word) (s : State) : (offerWord w s).initd = s.initd := rfl
@[simp] theorem offerWord_fault (w : Word) (s : State) : (offerWord w s).fault = s.fault := rfl
@[simp] theorem offerWord_dvalid (w : Word) (s : State) : (offerWord w s).dvalid = s.dvalid := rfl
@[simp] theorem offerWord_cause (w : Word) (s : State) : (offerWord w s).cause = s.cause := rfl
@[simp] theorem offerWord_finfo (w : Word) (s : State) : (offerWord w s).finfo = s.finfo := rfl
@[simp] theorem offerWord_rsp (w : Word) (s : State) : (offerWord w s).rsp = none := rfl
@[simp] theorem offerWord_config (w : Word) (s : State) : (offerWord w s).config = s.config := rfl
@[simp] theorem offerWord_host (w : Word) (s : State) : (offerWord w s).host = .command w :: s.host := rfl
@[simp] theorem offerWord_delivered (w : Word) (s : State) : (offerWord w s).delivered = s.delivered := rfl
@[simp] theorem offerWord_toArch (w : Word) (s : State) : (offerWord w s).toArch = s.toArch := rfl
@[simp] theorem offerWord_bufSize (w : Word) (s : State) : bufSize (offerWord w s) = bufSize s := rfl

/-! ### `transferResponse` -/

theorem transferResponse_some {s : State} {r : Response} (h : s.rsp = some r) :
    transferResponse s = { s with rsp := none, delivered := s.delivered ++ [r] } := by
  simp [transferResponse, h]

theorem transferResponse_none {s : State} (h : s.rsp = none) : transferResponse s = s := by
  simp [transferResponse, h]

@[simp] theorem transferResponse_toArch (s : State) : (transferResponse s).toArch = s.toArch := by
  unfold transferResponse; split <;> rfl

@[simp] theorem transferResponse_config (s : State) : (transferResponse s).config = s.config := by
  unfold transferResponse; split <;> rfl

@[simp] theorem transferResponse_host (s : State) : (transferResponse s).host = s.host := by
  unfold transferResponse; split <;> rfl

@[simp] theorem transferResponse_rsp (s : State) : (transferResponse s).rsp = none := by
  unfold transferResponse; split <;> simp_all

/-! ### `faultEntry` -/

/-- The first fault is recorded (R160). -/
theorem faultEntry_of_not_faulted {s : State} (c : Cause) (i : Word) (h : s.fault = false) :
    faultEntry c i s = trapped (causeCode c) i s := by
  simp [faultEntry, h, trapped, errorResponse]

/-- A later fault changes the response only (R160). -/
theorem faultEntry_of_faulted {s : State} (c : Cause) (i : Word) (h : s.fault = true) :
    faultEntry c i s = rejected (causeCode c) s := by
  simp [faultEntry, h, rejected, errorResponse]

end Sys2Proof.Machine
end

