-- ==== Sys2Proof/Laws/Ops.lean ====
section
/-! SUPPORT. For each shared operation, everything it can do, said once. -/

namespace Sys2Proof.Machine

/-! ### Answering and failing -/

theorem respond_eq (v : Word) (s : State) : respond v s = .next (answered v s) := rfl

theorem refuse_eq (s : State) : refuse s = .next (rejected 13#4 s) := rfl

theorem raise_eq (c : Cause) (i : Word) (s : State) : raise c i s = .next (faultEntry c i s) := rfl

theorem raise_of_not_faulted {s : State} (c : Cause) (i : Word) (h : s.fault = false) :
    raise c i s = .next (trapped (causeCode c) i s) := by
  rw [raise_eq, faultEntry_of_not_faulted c i h]

theorem raise_of_faulted {s : State} (c : Cause) (i : Word) (h : s.fault = true) :
    raise c i s = .next (rejected (causeCode c) s) := by
  rw [raise_eq, faultEntry_of_faulted c i h]

/-- Fault entry changes the fault registers and the response at most (R160). -/
theorem faultEntry_changes (c : Cause) (i : Word) (s : State) :
    faultEntry c i s = { s with
      fault := (faultEntry c i s).fault, cause := (faultEntry c i s).cause
      finfo := (faultEntry c i s).finfo, rsp := (faultEntry c i s).rsp } := by
  unfold faultEntry; split <;> rfl

@[simp] theorem faultEntry_fault (c : Cause) (i : Word) (s : State) : (faultEntry c i s).fault = true := by
  unfold faultEntry; split <;> simp_all

@[simp] theorem faultEntry_rsp (c : Cause) (i : Word) (s : State) :
    (faultEntry c i s).rsp = some (errorResponse c) := by
  unfold faultEntry; split <;> rfl

/-- Every cause has a code from 1 to 13 (R150). -/
theorem causeCode_range (c : Cause) : 1 ≤ (causeCode c).toNat ∧ (causeCode c).toNat ≤ 13 := by
  cases c <;> decide

/-- Only the refusal has the code that is never recorded (R164). -/
theorem causeCode_recordable {c : Cause} (h : c ≠ .faulted) : (causeCode c).toNat ≤ 12 := by
  cases c <;> first | decide | exact absurd rfl h

/-! ### The decode order (R75) -/

theorem unlessFaulted_ok {s : State} {body : State → Result} (h : s.fault = false) :
    unlessFaulted s body = body s := by
  simp [unlessFaulted, h]

theorem unlessFaulted_faulted {s : State} {body : State → Result} (h : s.fault = true) :
    unlessFaulted s body = .next (rejected 13#4 s) := by
  simp [unlessFaulted, h, refuse_eq]

theorem whenReady_ready {i : Instr} {s : State} {body : State → Result} (h : s.ready) :
    whenReady i s body = body s := by
  simp [whenReady, unlessFaulted_ok h.1, h.2]

theorem whenReady_faulted {i : Instr} {s : State} {body : State → Result} (h : s.fault = true) :
    whenReady i s body = .next (rejected 13#4 s) := unlessFaulted_faulted h

theorem whenReady_noBuffer {i : Instr} {s : State} {body : State → Result} (h : s.fault = false)
    (hi : s.initd = false) : whenReady i s body = .next (trapped 2#4 (encode i) s) := by
  simp [whenReady, unlessFaulted_ok h, hi, raise_of_not_faulted _ _ h, causeCode]

/-- Everything the guard of a command that needs a buffer can do: refuse, fault, or run the command's own rule. -/
theorem whenReady_cases (i : Instr) (s : State) (body : State → Result) :
    (s.fault = true ∧ whenReady i s body = .next (rejected 13#4 s)) ∨
    (s.fault = false ∧ s.initd = false ∧ whenReady i s body = .next (trapped 2#4 (encode i) s)) ∨
    (s.ready ∧ whenReady i s body = body s) := by
  cases hf : s.fault with
  | true => exact .inl ⟨rfl, whenReady_faulted hf⟩
  | false =>
    cases hi : s.initd with
    | false => exact .inr (.inl ⟨rfl, rfl, whenReady_noBuffer hf hi⟩)
    | true => exact .inr (.inr ⟨⟨hf, hi⟩, whenReady_ready ⟨hf, hi⟩⟩)

/-- Everything the guard of a command that needs no buffer can do. -/
theorem unlessFaulted_cases (s : State) (body : State → Result) :
    (s.fault = true ∧ unlessFaulted s body = .next (rejected 13#4 s)) ∨
    (s.fault = false ∧ unlessFaulted s body = body s) := by
  cases hf : s.fault with
  | true => exact .inl ⟨rfl, unlessFaulted_faulted hf⟩
  | false => exact .inr ⟨rfl, unlessFaulted_ok hf⟩

/-! ### Reads -/

/-- Everything a direct read can do: answer the entry, or stop where it is absent (R46, R55). -/
theorem respondEntry_cases {w : Nat} (e : Option (BitVec w)) (s : State) :
    (∃ v, e = some v ∧ respondEntry e s = .next (answered (v.setWidth 32) s)) ∨
    (e = none ∧ respondEntry e s = .fault .absentEntry) := by
  cases e with
  | none => exact .inr ⟨rfl, rfl⟩
  | some v => exact .inl ⟨v, rfl, rfl⟩

/-- The status registers are the numbers 0 to 11 (R33). -/
theorem statusRegister_none_iff (s : State) (n : Nat) : statusRegister s n = none ↔ 12 ≤ n := by
  by_cases h : n < 12
  · interval_cases n <;> simp [statusRegister]
  · obtain ⟨m, rfl⟩ := Nat.exists_eq_add_of_le' (Nat.le_of_not_lt h)
    simp [statusRegister]

/-! ### The buffer -/

@[simp] theorem reverseWrite_length (n c l : Nat) (old buf : List Byte) (k : Nat) :
    (reverseWrite n c l old buf k).length = buf.length := by
  unfold reverseWrite; split <;> simp

theorem reverseWrites_length (n c l : Nat) (old : List Byte) (ks : List Nat) (buf : List Byte) :
    (ks.foldl (reverseWrite n c l old) buf).length = buf.length := by
  induction ks generalizing buf with
  | nil => rfl
  | cons k ks ih => simp [ih]

/-- `Reverse` has a value exactly on its domain (R90). -/
theorem reverse_isSome_iff (n : Nat) (old : List Byte) (c l : Nat) :
    (reverse n old c l).isSome ↔ c < n ∧ l ≤ n ∧ old.length = n := by
  unfold reverse; split <;> simp_all

theorem reverse_domain {n : Nat} {old new : List Byte} {c l : Nat} (h : reverse n old c l = some new) :
    c < n ∧ l ≤ n ∧ old.length = n :=
  (reverse_isSome_iff n old c l).1 (by simp [h])

/-- `Reverse` keeps the number of entries. -/
theorem reverse_length {n : Nat} {old new : List Byte} {c l : Nat} (h : reverse n old c l = some new) :
    new.length = old.length := by
  have hd := reverse_domain h
  rw [reverse, if_pos hd] at h
  cases h
  exact reverseWrites_length ..

@[simp] theorem identityBuffer_length (n : Nat) : (identityBuffer n).length = n := by
  simp [identityBuffer]

theorem identityBuffer_get {n i : Nat} (h : i < n) : (identityBuffer n)[i]? = some (BitVec.ofNat 8 i) := by
  simp [identityBuffer, h]

@[simp] theorem blocks_length (buf : List Byte) (n : Nat) : (blocks buf n).length = n / 16 := by
  simp [blocks, blockSize]

/-- The depth of the list memory is 1 to 65536 (R5). -/
theorem ldepth_range (c : Config) : 1 ≤ c.ldepth ∧ c.ldepth ≤ 65536 := by
  have := c.lastIndex.isLt
  unfold Config.ldepth
  omega

end Sys2Proof.Machine
end

