-- ==== Sys2Proof/Laws/Exec.lean ====
section
/-! SUPPORT. Which guard of the decode order (spec/30_encoding.md R75) each command stands behind. -/

namespace Sys2Proof.Machine

/-- A command that needs a buffer is its own rule behind steps 2 and 3 of the decode order. -/
theorem exec_behind_whenReady {i : Instr} (h : needsNoBuffer i = false) :
    ∃ body, ∀ s, exec i s = whenReady i s body := by
  cases i <;> first | exact ⟨_, fun _ => rfl⟩ | simp [needsNoBuffer] at h

/-- A command that is refused while faulted is its own rule behind step 2 of the decode order. -/
theorem exec_behind_unlessFaulted {i : Instr} (h : acceptedWhileFaulted i = false) :
    ∃ body, ∀ s, exec i s = unlessFaulted s body := by
  cases i <;> first | exact ⟨_, fun _ => rfl⟩ | simp [acceptedWhileFaulted] at h

/-! ### The command's own rule, for a core that is ready -/

theorem exec_rev_ready {s : State} (c : Byte) (l : Half) (h : s.ready) :
    exec (.rev c l) s =
      if c.toNat ≥ bufSize s then raise .badCur (c.setWidth 32) s
      else if l.toNat > bufSize s then raise .oversize (l.setWidth 32) s
      else match reverse (bufSize s) s.buf c.toNat l.toNat with
        | some b => respond 0#32 { clearDigest s with buf := b }
        | none => .fault .reverseWithoutMeaning := by
  show execRev c l s = _
  unfold execRev; exact whenReady_ready h

theorem exec_rdbuf_ready {s : State} (i : Byte) (h : s.ready) :
    exec (.rdbuf i) s =
      if i.toNat ≥ bufSize s then raise .index (i.setWidth 32) s else respondEntry (readBuf s i.toNat) s := by
  show execRdbuf i s = _
  unfold execRdbuf; exact whenReady_ready h

theorem exec_lclr_ready {s : State} (h : s.ready) :
    exec .lclr s = respond 0#32 { s with ll := [], lcnt := 0#17 } := by
  show execLclr s = _
  unfold execLclr; exact whenReady_ready h

theorem exec_lpush_ready {s : State} (l : Half) (h : s.ready) :
    exec (.lpush l) s =
      if s.lcnt.toNat = s.config.ldepth then raise .lFull (l.setWidth 32) s
      else respond 0#32 { s with ll := s.ll ++ [l], lcnt := s.lcnt + 1#17 } := by
  show execLpush l s = _
  unfold execLpush; exact whenReady_ready h

theorem exec_rdll_ready {s : State} (j : Half) (h : s.ready) :
    exec (.rdll j) s =
      if j.toNat ≥ s.lcnt.toNat then raise .index (j.setWidth 32) s else respondEntry (readList s j.toNat) s := by
  show execRdll j s = _
  unfold execRdll; exact whenReady_ready h

theorem exec_step_ready {s : State} (l : Half) (h : s.ready) :
    exec (.step l) s =
      if l.toNat > bufSize s then raise .oversize (l.setWidth 32) s
      else if s.skip = skipMax then raise .skipOvf s.skip s
      else finish (stepLen l (clearDigest s)) := by
  show execStep l s = _
  unfold execStep; exact whenReady_ready h

theorem exec_run_ready {s : State} (r : Half) (h : s.ready) :
    exec (.run r) s = finish (runRounds r.toNat { clearDigest s with rnd := 0#16, lidx := 0#17 }) := by
  show execRun r s = _
  unfold execRun; exact whenReady_ready h

theorem exec_reduce_ready {s : State} (h : s.ready) :
    exec .reduce s =
      if bufSize s % blockSize ≠ 0 then raise .misaligned (s.nreg.setWidth 32) s
      else if s.buf.length ≠ bufSize s then .fault .absentEntry
      else respond 0#32
        { s with
          dig := blocks s.buf (bufSize s)
          dcnt := BitVec.ofNat 5 (bufSize s / blockSize)
          dvalid := true } := by
  show execReduce s = _
  unfold execReduce; exact whenReady_ready h

theorem exec_rddig_ready {s : State} (i : Byte) (h : s.ready) :
    exec (.rddig i) s =
      if s.dvalid = false then raise .noDigest (i.setWidth 32) s
      else if i.toNat ≥ s.dcnt.toNat then raise .index (i.setWidth 32) s
      else respondEntry (readDigest s i.toNat) s := by
  show execRddig i s = _
  unfold execRddig; exact whenReady_ready h

theorem exec_rdhex_ready {s : State} (j : Byte) (h : s.ready) :
    exec (.rdhex j) s =
      if s.dvalid = false then raise .noDigest (j.setWidth 32) s
      else if j.toNat ≥ 2 * s.dcnt.toNat then raise .index (j.setWidth 32) s
      else respondEntry ((readDigest s (j.toNat / 2)).map (hexCharacter j)) s := by
  show execRdhex j s = _
  unfold execRdhex; exact whenReady_ready h

theorem exec_cksum_ready {s : State} (h : s.ready) :
    exec .cksum s =
      if bufSize s < 2 then raise .index 1#32 s
      else match readBuf s 0, readBuf s 1 with
        | some x, some y => respond (product x y) s
        | _, _ => .fault .absentEntry := by
  show execCksum s = _
  unfold execCksum; exact whenReady_ready h

theorem exec_hexb_ok {s : State} (b : Byte) (h : s.fault = false) :
    exec (.hexb b) s = respond ((packChars (hex2 b).1 (hex2 b).2).setWidth 32) s := by
  show execHexb b s = _
  unfold execHexb; exact unlessFaulted_ok h

theorem exec_hexd_ok {s : State} (x : Half) (h : s.fault = false) :
    exec (.hexd x) s =
      match unhex2 (firstChar x) (secondChar x) with
      | some b => respond (b.setWidth 32) s
      | none => raise .badHex (x.setWidth 32) s := by
  show execHexd x s = _
  unfold execHexd; exact unlessFaulted_ok h

end Sys2Proof.Machine
end

