-- ==== Sys2Proof/Laws/PerInstr.lean ====
section
/-! SUPPORT. The per-instruction family: the encoder fills no field that its command does not use (spec/30_encoding.md
R71), one lemma per constructor. -/

namespace Sys2Proof.Laws.EncodesWellFormed

/-- The fields the encoder gives a command are well formed (R71). -/
def Statement (i : Instr) : Prop := (encodeFields i).wellFormed = true

theorem nop : Statement .nop := rfl
theorem init (n : Half) : Statement (.init n) := rfl
theorem rdsr (s : Byte) : Statement (.rdsr s) := rfl
theorem rev (c : Byte) (l : Half) : Statement (.rev c l) := rfl
theorem rdbuf (i : Byte) : Statement (.rdbuf i) := rfl
theorem lclr : Statement .lclr := rfl
theorem lpush (l : Half) : Statement (.lpush l) := rfl
theorem rdll (j : Half) : Statement (.rdll j) := rfl
theorem step (l : Half) : Statement (.step l) := rfl
theorem run (r : Half) : Statement (.run r) := rfl
theorem reduce : Statement .reduce := rfl
theorem rddig (i : Byte) : Statement (.rddig i) := rfl
theorem hexb (b : Byte) : Statement (.hexb b) := rfl
theorem hexd (h : Half) : Statement (.hexd h) := rfl
theorem rdhex (j : Byte) : Statement (.rdhex j) := rfl
theorem cksum : Statement .cksum := rfl

end Sys2Proof.Laws.EncodesWellFormed
end

