-- ==== Sys2Proof/Laws/Step.lean ====
section
/-! SUPPORT. Everything one step can do (spec/30_encoding.md R75, R78). -/

namespace Sys2Proof.Machine

/-- A step does one of these: nothing (no action of the host is pending), reset, the transfer of a response, or, when no
response waits, the execution of the offered word. -/
theorem step_cases (s : State) :
    (s.host = [] ∧ step s = .next s) ∨
    (∃ rest, s.host = .reset :: rest ∧ step s = .next (hostReset { s with host := rest })) ∨
    (∃ rest, s.host = .takeResponse :: rest ∧ step s = .next (transferResponse { s with host := rest })) ∨
    (∃ w rest r, s.host = .command w :: rest ∧ s.rsp = some r ∧ step s = .next (transferResponse s)) ∨
    (∃ w rest, s.host = .command w :: rest ∧ s.rsp = none ∧ step s = execWord w { s with host := rest }) := by
  unfold step transfer
  cases hh : s.host with
  | nil => exact .inl ⟨rfl, rfl⟩
  | cons e rest =>
    cases e with
    | reset => exact .inr (.inl ⟨rest, rfl, rfl⟩)
    | takeResponse => exact .inr (.inr (.inl ⟨rest, rfl, rfl⟩))
    | command w =>
      cases hr : s.rsp with
      | some r => exact .inr (.inr (.inr (.inl ⟨w, rest, r, rfl, rfl, rfl⟩)))
      | none => exact .inr (.inr (.inr (.inr ⟨w, rest, rfl, rfl, rfl⟩)))

/-- The execution of a word: its command, or the illegal-word fault. -/
theorem execWord_cases (w : Word) (s : State) :
    (∃ i, decode w = .ok i ∧ execWord w s = exec i s) ∨
    (∃ e, decode w = .error e ∧ execWord w s = .next (faultEntry .illegal w s)) := by
  unfold execWord
  cases h : decode w with
  | ok i => exact .inl ⟨i, rfl, rfl⟩
  | error e => exact .inr ⟨e, rfl, rfl⟩

end Sys2Proof.Machine
end

