-- ==== Sys2Proof/Laws/Run.lean ====
section
/-! SUPPORT. What handing over a word, one more word of a run and one more step of the machine can do (R191). -/

namespace Sys2Proof.Machine

/-- A word handed over and answered is an executed word whose response has been transferred. -/
theorem handOver_eq_some {w : Word} {s u : State} {r : Response} :
    handOver w s = some (r, u) ↔ ∃ t, execWord w s = .next t ∧ t.rsp = some r ∧ u = transferResponse t := by
  unfold handOver
  constructor
  · intro h
    split at h
    · rename_i t ht
      split at h
      · rename_i r' hr; cases h; exact ⟨t, ht, hr, rfl⟩
      · cases h
    · cases h
    · cases h
  · rintro ⟨t, ht, hr, rfl⟩
    simp [ht, hr]

/-- A run of at least one word is that word handed over and the run of the others from there. -/
theorem runWords_cons_eq_some {w : Word} {rest : List Word} {s : State} {x : RunResult} :
    runWords (w :: rest) s = some x ↔
      ∃ r u y, handOver w s = some (r, u) ∧ runWords rest u = some y ∧ x = ⟨r :: y.responses, y.final⟩ := by
  simp only [runWords]
  constructor
  · intro h
    split at h
    · cases h
    · rename_i r u hh
      obtain ⟨y, hy, rfl⟩ := Option.map_eq_some_iff.1 h
      exact ⟨r, u, y, hh, hy, rfl⟩
  · rintro ⟨r, u, y, hh, hy, rfl⟩
    simp [hh, hy]

/-- A machine that steps to `v` and then runs `k` steps to an outcome runs `k + 1` steps to it. -/
theorem core_run_succ {u v : State} {k : Nat} (h : step u = .next v) :
    Host.Core.run core (k + 1) u = Host.Core.run core k v := by
  have h0 : Host.Core.run core (k + 1) u = _ := Host.Core.run.eq_2 core u k
  rw [show core.step u = .next v from h] at h0
  exact h0

end Sys2Proof.Machine
end

