-- ==== Sys2Proof/Laws/Scrambler.lean ====
section
/-! SUPPORT. What the per-length step and the passes of `RUN` can do (spec/41_scrambler.md R105, R108). -/

namespace Sys2Proof.Machine

/-- Everything the per-length step can do (R105): fault before any effect, stop where `Reverse` has no meaning, or make
the whole step. -/
theorem stepLen_cases (l : Half) (s : State) :
    (bufSize s < l.toNat ∧ stepLen l s = .ended (raise .oversize (l.setWidth 32) s)) ∨
    (l.toNat ≤ bufSize s ∧ s.skip = skipMax ∧ stepLen l s = .ended (raise .skipOvf s.skip s)) ∨
    (l.toNat ≤ bufSize s ∧ s.skip ≠ skipMax ∧ reverse (bufSize s) s.buf s.cur.toNat l.toNat = none ∧
      stepLen l s = .ended (.fault .reverseWithoutMeaning)) ∨
    (∃ b, l.toNat ≤ bufSize s ∧ s.skip ≠ skipMax ∧
      reverse (bufSize s) s.buf s.cur.toNat l.toNat = some b ∧
      stepLen l s = .goOn { s with
        buf := b
        cur := BitVec.ofNat 8 ((s.cur.toNat + l.toNat + s.skip.toNat) % bufSize s)
        skip := s.skip + 1#32 }) := by
  by_cases h1 : l.toNat > bufSize s
  · exact .inl ⟨h1, by simp [stepLen, h1]⟩
  · have h1' : l.toNat ≤ bufSize s := by omega
    by_cases h2 : s.skip = skipMax
    · exact .inr (.inl ⟨h1', h2, by simp [stepLen, h1, h2]⟩)
    · cases h3 : reverse (bufSize s) s.buf s.cur.toNat l.toNat with
      | none => exact .inr (.inr (.inl ⟨h1', h2, rfl, by simp [stepLen, h1, h2, h3]⟩))
      | some b => exact .inr (.inr (.inr ⟨b, h1', h2, rfl, by simp [stepLen, h1, h2, h3]⟩))

/-- What a flow leads to satisfies `P`, if every state it goes on from and every next state it ends in does. -/
def Flow.leads (P : State → Prop) : Flow → Prop
  | .goOn s => P s
  | .ended r => ∀ t, r = .next t → P t

/-- A property of states that the parts of `RUN` keep: it is kept by fault entry, by a whole per-length step and by the
movements of the sequencer. -/
structure RunKeeps (P : State → Prop) : Prop where
  raise : ∀ c i s, c ≠ .faulted → P s → P (faultEntry c i s)
  step : ∀ l s t, stepLen l s = .goOn t → P s → P t
  advance : ∀ s k, P s → P { s with lidx := k }
  nextRound : ∀ s k, P s → P { s with lidx := 0#17, rnd := k }

/-- The induction over the entries of a pass, once. -/
theorem runPass_keeps {P : State → Prop} (h : RunKeeps P) (k : Nat) (s : State) (hs : P s) :
    (runPass k s).leads P := by
  induction k generalizing s with
  | zero => exact hs
  | succ k ih =>
    unfold runPass
    split
    · intro t ht; cases ht
    · rename_i l _
      split
      · rename_i r hr
        intro t ht
        rcases stepLen_cases l s with ⟨-, e⟩ | ⟨-, -, e⟩ | ⟨-, -, -, e⟩ | ⟨b, -, -, -, e⟩
        · rw [e] at hr; cases hr; rw [raise_eq] at ht; cases ht; exact h.raise _ _ _ (by decide) hs
        · rw [e] at hr; cases hr; rw [raise_eq] at ht; cases ht; exact h.raise _ _ _ (by decide) hs
        · rw [e] at hr; cases hr; cases ht
        · rw [e] at hr; cases hr
      · rename_i t ht
        exact ih _ (h.advance _ _ (h.step _ _ _ ht hs))

/-- The induction over the rounds, once. -/
theorem runRounds_keeps {P : State → Prop} (h : RunKeeps P) (k : Nat) (s : State) (hs : P s) :
    (runRounds k s).leads P := by
  induction k generalizing s with
  | zero => exact hs
  | succ k ih =>
    have hp := runPass_keeps h s.lcnt.toNat s hs
    unfold runRounds
    split
    · rename_i r hr
      rw [hr] at hp
      exact hp
    · rename_i t ht
      rw [ht] at hp
      exact ih _ (h.nextRound _ _ hp)

/-- What a finished flow answers satisfies `P`, if the flow leads to `P` and the response does not matter to `P`. -/
theorem finish_keeps {P : State → Prop} (hr : ∀ v s, P s → P (answered v s)) {f : Flow} (hf : f.leads P) {t : State}
    (h : finish f = .next t) : P t := by
  cases f with
  | goOn s => cases h; exact hr _ _ hf
  | ended r => exact hf t h

end Sys2Proof.Machine
end

