-- ==== Sys2Proof/Laws/Storage.lean ====
section
/-! SUPPORT. Every operation on the storage keeps its canonical form: each file holds exactly the entries its counter
covers (spec/10_state.md R46). -/

namespace Sys2Proof.Machine

theorem reset_storageWf : State.reset.storageWf := by decide

theorem answered_storageWf {s : State} (v : Word) (h : s.storageWf) : (answered v s).storageWf := h

theorem faultEntry_storageWf {s : State} (c : Cause) (i : Word) (h : s.storageWf) : (faultEntry c i s).storageWf := by
  unfold faultEntry; split <;> exact h

theorem clearDigest_storageWf {s : State} (h : s.storageWf) : (clearDigest s).storageWf := ⟨h.1, h.2.1, rfl⟩

theorem construct_storageWf {n : Half} (hn : n.toNat ≤ nMax) (s : State) : (construct n s).storageWf := by
  refine ⟨?_, rfl, rfl⟩
  have : n.toNat < 512 := by unfold nMax at hn; omega
  simp [bufSize, Nat.mod_eq_of_lt this]

theorem hostReset_storageWf (s : State) : (hostReset s).storageWf := ⟨rfl, rfl, rfl⟩

/-- The store of `REV` (R93). -/
theorem setBuf_storageWf {s : State} {b : List Byte} {c l : Nat} (h : s.storageWf)
    (hb : reverse (bufSize s) s.buf c l = some b) : State.storageWf { s with buf := b } :=
  ⟨(reverse_length hb).trans h.1, h.2.1, h.2.2⟩

/-- The store of `LCLR` (R100). -/
theorem clearList_storageWf {s : State} (h : s.storageWf) : State.storageWf { s with ll := [], lcnt := 0#17 } :=
  ⟨h.1, rfl, h.2.2⟩

/-- The store of `LPUSH` (R101). -/
theorem push_storageWf {s : State} (l : Half) (h : s.storageWf) (hl : s.lcnt.toNat < s.config.ldepth) :
    State.storageWf { s with ll := s.ll ++ [l], lcnt := s.lcnt + 1#17 } := by
  refine ⟨h.1, ?_, h.2.2⟩
  have := ldepth_range s.config
  have h2 := h.2.1
  simp [BitVec.toNat_add, h2]
  omega

/-- The per-length step (R105). -/
theorem stepLen_storageWf {l : Half} {s t : State} (ht : stepLen l s = .goOn t) (h : s.storageWf) : t.storageWf := by
  rcases stepLen_cases l s with ⟨-, e⟩ | ⟨-, -, e⟩ | ⟨-, -, -, e⟩ | ⟨b, -, -, hb, e⟩ <;> rw [e] at ht <;> cases ht
  exact ⟨(reverse_length hb).trans h.1, h.2.1, h.2.2⟩

theorem storageWf_runKeeps : RunKeeps State.storageWf where
  raise _ _ _ _ h := faultEntry_storageWf _ _ h
  step _ _ _ ht h := stepLen_storageWf ht h
  advance _ _ h := h
  nextRound _ _ h := h

/-- The passes of `RUN` (R108). -/
theorem runRounds_storageWf (k : Nat) {s : State} (h : s.storageWf) : (runRounds k s).leads State.storageWf :=
  runRounds_keeps storageWf_runKeeps k s h

/-- The store of `REDUCE` (R121). -/
theorem reduce_storageWf {s : State} (h : s.storageWf) (hn : bufSize s ≤ nMax) :
    State.storageWf { s with
      dig := blocks s.buf (bufSize s), dcnt := BitVec.ofNat 5 (bufSize s / blockSize), dvalid := true } := by
  refine ⟨h.1, h.2.1, ?_⟩
  unfold nMax at hn
  have : bufSize s / 16 < 32 := by omega
  simp [blockSize, Nat.mod_eq_of_lt this]

end Sys2Proof.Machine
end

