-- ==== Sys2Proof/Tests/Slice0.lean ====
section
/-! SUPPORT. The model's own tests: the form checks, decoding, one step of each command with the expected values of
spec/95_test_vectors.md. Sys2Proof/Tests/Witnesses.lean holds the witnesses of the statements' hypotheses. -/

namespace Sys2Proof.Tests

open Sys2Proof Sys2Proof.Machine

/-! ### Form checks (spec/30_encoding.md R71, R74, R80): one ill-formed term for each -/

theorem test_wf_unlisted_opcode : (Fields.mk 0x03#8 0#8 0#16).wellFormed = false := by decide
theorem test_wf_unused_a : (Fields.mk 0x01#8 1#8 5#16).wellFormed = false := by decide
theorem test_wf_unused_imm : (Fields.mk 0x40#8 0#8 1#16).wellFormed = false := by decide
theorem test_wf_no_operand_a : (Fields.mk 0x00#8 1#8 0#16).wellFormed = false := by decide
theorem test_wf_no_operand_imm : (Fields.mk 0x20#8 0#8 1#16).wellFormed = false := by decide
theorem test_wf_used_fields : (Fields.mk 0x10#8 255#8 65535#16).wellFormed = true := by decide
theorem test_line_a_too_big : (AsmLine.rdsr 256).wellFormed = false := by decide
theorem test_line_imm_too_big : (AsmLine.init 65536).wellFormed = false := by decide
theorem test_line_rev_start_too_big : (AsmLine.rev 256 0).wellFormed = false := by decide
theorem test_line_rev_length_too_big : (AsmLine.rev 0 65536).wellFormed = false := by decide
theorem test_line_code_too_big : (AsmLine.lstr [49, 256]).wellFormed = false := by decide
theorem test_line_fits : (AsmLine.rev 255 65535).wellFormed = true := by decide

/-! ### Decoding: words written out from the fields of R70 and R71 (the examples of R80, programs P1 to P4) -/

theorem test_decode_nop : decode 0x00000000#32 = .ok .nop := rfl
theorem test_decode_init : decode 0x01000100#32 = .ok (.init 256#16) := rfl
theorem test_decode_rdsr : decode 0x02C80000#32 = .ok (.rdsr 200#8) := rfl
theorem test_decode_rev : decode 0x10030004#32 = .ok (.rev 3#8 4#16) := rfl
theorem test_decode_rdbuf : decode 0x11FF0000#32 = .ok (.rdbuf 255#8) := rfl
theorem test_decode_lclr : decode 0x20000000#32 = .ok .lclr := rfl
theorem test_decode_lpush : decode 0x210000A5#32 = .ok (.lpush 165#16) := rfl
theorem test_decode_rdll : decode 0x22000002#32 = .ok (.rdll 2#16) := rfl
theorem test_decode_step : decode 0x23000003#32 = .ok (.step 3#16) := rfl
theorem test_decode_run : decode 0x24000040#32 = .ok (.run 64#16) := rfl
theorem test_decode_reduce : decode 0x30000000#32 = .ok .reduce := rfl
theorem test_decode_rddig : decode 0x310F0000#32 = .ok (.rddig 15#8) := rfl
theorem test_decode_hexb : decode 0x400A0000#32 = .ok (.hexb 10#8) := rfl
theorem test_decode_hexd : decode 0x41003061#32 = .ok (.hexd 0x3061#16) := rfl
theorem test_decode_rdhex : decode 0x421F0000#32 = .ok (.rdhex 31#8) := rfl
theorem test_decode_cksum : decode 0x50000000#32 = .ok .cksum := rfl

/-- The illegal words of vectors V11h, V57, V66, V67, V68. -/
theorem test_decode_illegal :
    decode 0x03000000#32 = .error .unlistedOpcode ∧ decode 0x01010005#32 = .error .nonzeroUnusedField ∧
    decode 0x20000001#32 = .error .nonzeroUnusedField ∧ decode 0x11000001#32 = .error .nonzeroUnusedField ∧
    decode 0x40000001#32 = .error .nonzeroUnusedField := ⟨rfl, rfl, rfl, rfl, rfl⟩

/-- R80: the printed words of two lines, and R85: the words of a string (program P3). -/
theorem test_assemble :
    assemble (.rev 3 4) = some [0x10030004#32] ∧ assemble (.init 256) = some [0x01000100#32] ∧
    assemble (.lstr [49, 44, 50]) = some [0x21000031#32, 0x2100002C#32, 0x21000032#32] := by decide

/-! ### Small states -/

/-- A fresh computation of size `n`, the ports idle (R141). -/
def fresh (n : Half) : State := construct n State.reset

/-- The list of vector S1. -/
def listed5 : State := { fresh 5#16 with ll := [3#16, 4#16, 1#16, 5#16], lcnt := 4#17 }

/-- The list of program P4, its second entry above `N`. -/
def badList5 : State := { fresh 5#16 with ll := [3#16, 6#16, 1#16], lcnt := 3#17 }

/-- A list memory of one entry, full. -/
def full5 : State := { fresh 5#16 with config := ⟨0#16⟩, ll := [3#16], lcnt := 1#17 }

/-- The greatest list memory, with nothing in it. -/
def deep5 : State := { fresh 5#16 with config := ⟨0xFFFF#16⟩ }

/-- Vector V16: the skip size at its top. -/
def top5 : State := { fresh 5#16 with skip := 0xFFFFFFFF#32 }

/-- Vector V17: one step below the top. -/
def nearTop5 : State := { fresh 5#16 with skip := 0xFFFFFFFE#32 }

/-- `N = 32` after `REV 16, 17`, by R90: the positions 16 to 31 and 0 hold their old entries in the opposite order. -/
def mixed32 : State :=
  { fresh 32#16 with
    buf := [16#8, 1#8, 2#8, 3#8, 4#8, 5#8, 6#8, 7#8, 8#8, 9#8, 10#8, 11#8, 12#8, 13#8, 14#8, 15#8,
            0#8, 31#8, 30#8, 29#8, 28#8, 27#8, 26#8, 25#8, 24#8, 23#8, 22#8, 21#8, 20#8, 19#8, 18#8, 17#8] }

/-- The digest of `mixed32`: 16 consecutive numbers from a multiple of 16 xor to 0, so 16 and 0 exchanged leaves 16 in
both blocks. -/
def digested32 : State := { mixed32 with dig := [16#8, 16#8], dcnt := 2#5, dvalid := true }

/-- The digest of the identity buffer of 256 elements (vector V31). -/
def digested256 : State := { fresh 256#16 with dig := List.replicate 16 0#8, dcnt := 16#5, dvalid := true }

/-- A state with a recorded fault (vector V15). -/
def faulted5 : State := { fresh 5#16 with fault := true, cause := 4#4, finfo := 6#32 }

/-- A state in which the response `(0, 3)` waits. -/
def waiting5 : State := { fresh 5#16 with rsp := some ⟨false, 3#32⟩ }

/-! ### One step of each command -/

/-- The next state of an outcome. -/
def nextOf : Result → Option State
  | .next s => some s
  | .fault _ | .refused _ => none

/-- The response a command ends with, as `(err, data)`. -/
def answer (r : Result) : Option (Bool × Nat) :=
  ((nextOf r).bind (·.rsp)).map fun x => (x.err, x.data.toNat)

/-- The response and the buffer after a command. -/
def bufferAfter (r : Result) : Option (List Nat) := (nextOf r).map fun s => s.buf.map BitVec.toNat

/-- Cursor, skip size and sequencer position after a command. -/
def positionAfter (r : Result) : Option (Nat × Nat × Nat × Nat) :=
  (nextOf r).map fun s => (s.cur.toNat, s.skip.toNat, s.rnd.toNat, s.lidx.toNat)

/-- The status word, the cause and the fault information after a command. -/
def faultAfter (r : Result) : Option (Nat × Nat × Nat) :=
  (nextOf r).map fun s => ((statusWord s).toNat, s.cause.toNat, s.finfo.toNat)

/-- V74. -/
theorem test_nop_while_faulted : answer (exec .nop faulted5) = some (false, 0) := by decide
/-- V62, V73: `INIT` clears the fault, the skip size and the list. -/
theorem test_init_clears : faultAfter (exec (.init 16#16) faulted5) = some (1, 0, 0) := by decide
/-- V64. -/
theorem test_init_bad_size :
    answer (exec (.init 257#16) State.reset) = some (true, 3) ∧
    faultAfter (exec (.init 257#16) State.reset) = some (2, 3, 0x101) := by decide
/-- V60. -/
theorem test_rdsr_constants :
    answer (exec (.rdsr 10#8) State.reset) = some (false, 1024) ∧
    answer (exec (.rdsr 11#8) State.reset) = some (false, 0x4B4E0001) := by decide
/-- V69, and P4: while faulted the code is answered and not recorded. -/
theorem test_rdsr_unimplemented :
    faultAfter (exec (.rdsr 12#8) (fresh 5#16)) = some (3, 12, 12) ∧
    answer (exec (.rdsr 200#8) faulted5) = some (true, 12) ∧
    faultAfter (exec (.rdsr 200#8) faulted5) = some (3, 4, 6) := by decide
/-- V8: the reversal wraps past the end of the buffer. -/
theorem test_rev_wraps : bufferAfter (exec (.rev 6#8 5#16) (fresh 8#16)) = some [0, 7, 6, 3, 4, 5, 2, 1] := by decide
/-- V11c: the start position is checked before the length. -/
theorem test_rev_bad_start : faultAfter (exec (.rev 5#8 9#16) (fresh 5#16)) = some (3, 6, 5) := by decide
/-- V65. -/
theorem test_rdbuf : answer (exec (.rdbuf 200#8) (fresh 256#16)) = some (false, 200) := by decide +kernel
/-- V11f, V61. -/
theorem test_rdbuf_faults :
    faultAfter (exec (.rdbuf 5#8) (fresh 5#16)) = some (3, 7, 5) ∧
    faultAfter (exec (.rdbuf 0#8) State.reset) = some (2, 2, 0x11000000) := by decide
/-- V24: the list is empty, the digest kept. -/
theorem test_lclr :
    ((nextOf (exec .lclr listed5)).map fun s => (s.ll, s.lcnt.toNat)) = some ([], 0) ∧
    ((nextOf (exec .lclr digested32)).map (·.dvalid)) = some true := by decide
/-- V20: an oversized length is stored. -/
theorem test_lpush_appends :
    ((nextOf (exec (.lpush 9#16) listed5)).map (·.ll)) = some [3#16, 4#16, 1#16, 5#16, 9#16] := by decide
/-- V19, with a list memory of one entry. -/
theorem test_lpush_full : faultAfter (exec (.lpush 2#16) full5) = some (3, 8, 2) := by decide
/-- V18. -/
theorem test_rdll :
    answer (exec (.rdll 1#16) listed5) = some (false, 4) ∧
    faultAfter (exec (.rdll 4#16) listed5) = some (3, 7, 4) := by decide
/-- V17: the advance is exact, the count reaches its top. -/
theorem test_step_near_top :
    bufferAfter (exec (.step 2#16) nearTop5) = some [1, 0, 2, 3, 4] ∧
    positionAfter (exec (.step 2#16) nearTop5) = some (1, 0xFFFFFFFF, 0, 0) := by decide
/-- V15, V16: oversize and overflow, nothing done. -/
theorem test_step_faults :
    faultAfter (exec (.step 6#16) (fresh 5#16)) = some (3, 4, 6) ∧
    faultAfter (exec (.step 1#16) top5) = some (3, 9, 0xFFFFFFFF) ∧
    positionAfter (exec (.step 1#16) top5) = some (0, 0xFFFFFFFF, 0, 0) := by decide
/-- V22: two rounds. -/
theorem test_run_two_rounds :
    bufferAfter (exec (.run 2#16) listed5) = some [2, 1, 4, 3, 0] ∧
    positionAfter (exec (.run 2#16) listed5) = some (4, 8, 2, 0) := by decide +kernel
/-- P4: a fault in the middle of a run keeps what is done. -/
theorem test_run_stops_midway :
    bufferAfter (exec (.run 1#16) badList5) = some [2, 1, 0, 3, 4] ∧
    positionAfter (exec (.run 1#16) badList5) = some (3, 1, 0, 1) ∧
    faultAfter (exec (.run 1#16) badList5) = some (3, 4, 6) := by decide +kernel
/-- The digest of `mixed32` by R120. -/
theorem test_reduce :
    ((nextOf (exec .reduce mixed32)).map fun s => (s.dig, s.dcnt.toNat, s.dvalid)) = some ([16#8, 16#8], 2, true) := by
  decide +kernel
/-- V34. -/
theorem test_reduce_misaligned : faultAfter (exec .reduce (fresh 5#16)) = some (3, 5, 5) := by decide
/-- V33, V36: the last byte, past it, and no digest. -/
theorem test_rddig :
    answer (exec (.rddig 1#8) digested32) = some (false, 16) ∧
    faultAfter (exec (.rddig 2#8) digested32) = some (7, 7, 2) ∧
    faultAfter (exec (.rddig 0#8) (fresh 16#16)) = some (3, 10, 0) := by decide
/-- V46, V54: no buffer is needed. -/
theorem test_hexb :
    answer (exec (.hexb 165#8) State.reset) = some (false, 0x6135) ∧
    answer (exec (.hexb 10#8) State.reset) = some (false, 0x3061) := by decide
/-- V48, V49. -/
theorem test_hexd :
    answer (exec (.hexd 0x3061#16) State.reset) = some (false, 10) ∧
    answer (exec (.hexd 0x6666#16) State.reset) = some (false, 255) := by decide
/-- V50, V52: upper case and the codes just outside the two ranges. -/
theorem test_hexd_bad :
    faultAfter (exec (.hexd 0x3041#16) State.reset) = some (2, 11, 0x3041) ∧
    answer (exec (.hexd 0x2F30#16) State.reset) = some (true, 11) ∧
    answer (exec (.hexd 0x3A30#16) State.reset) = some (true, 11) ∧
    answer (exec (.hexd 0x6030#16) State.reset) = some (true, 11) := by decide
/-- The bytes 16, 16 read as "1010"; index 4 is past the end (R135). -/
theorem test_rdhex :
    answer (exec (.rdhex 0#8) digested32) = some (false, 0x31) ∧
    answer (exec (.rdhex 3#8) digested32) = some (false, 0x30) ∧
    faultAfter (exec (.rdhex 4#8) digested32) = some (7, 7, 4) := by decide
/-- P1: 3 times 4. -/
theorem test_cksum :
    answer (exec .cksum { fresh 5#16 with buf := [3#8, 4#8, 2#8, 1#8, 0#8] }) = some (false, 12) := by decide
/-- V70, V71. -/
theorem test_cksum_edges :
    answer (exec .cksum (fresh 5#16)) = some (false, 0) ∧
    faultAfter (exec .cksum (fresh 1#16)) = some (3, 7, 1) := by decide
/-- V62: refusal while faulted. -/
theorem test_refusal : answer (exec (.hexb 10#8) faulted5) = some (true, 13) := by decide

/-! ### Steps -/

/-- The first word after reset runs: `INIT 5` (P1). -/
theorem test_step_runs_the_word :
    bufferAfter (step (State.reset.withFetchWord 32 0x01000005)) = some [0, 1, 2, 3, 4] := by decide
/-- V66: an illegal word faults and is recorded. -/
theorem test_step_illegal :
    faultAfter (step ((fresh 5#16).withFetchWord 32 0x01010005)) = some (3, 1, 0x01010005) := by decide
/-- R180: reset in the middle of the host's actions. -/
theorem test_step_reset :
    ((nextOf (step { faulted5 with host := [.reset, .command 0x50000000#32] })).map fun s => (s.toArch, s.host)) =
      some (Arch.reset, [.command 0x50000000#32]) := by decide
/-- R78: the response is transferred before the next word is taken. -/
theorem test_step_transfers :
    ((nextOf (step { waiting5 with host := [.command 0x00000000#32] })).map fun s => (s.rsp, s.delivered)) =
      some (none, [⟨false, 3#32⟩]) := by decide
/-- R191: `INIT 5`, `STEP 6` (V15) is a run that did not succeed. -/
theorem test_run_fails :
    (runWords [0x01000005#32, 0x23000006#32] State.reset).map (fun x => (x.responses, runSucceeded x)) =
      some ([⟨false, 0#32⟩, ⟨true, 4#32⟩], false) := by decide
/-- R191: the same words cut by `rst` before the last response is transferred have no result. -/
theorem test_run_cut_by_reset :
    runResult [.command 0x01000005#32, .takeResponse, .command 0x23000006#32, .reset] State.reset = none := by decide
theorem test_core_is_the_machine : core.reset = State.reset := rfl

end Sys2Proof.Tests
end

