-- ==== Sys2Proof/Tests/States.lean ====
section
/-! SUPPORT. The small states of the tests have the invariants. -/

namespace Sys2Proof.Tests

open Sys2Proof Sys2Proof.Machine

/-- A fresh computation has the invariants, whatever its size. -/
theorem fresh_inv {n : Half} (h₁ : 1 ≤ n.toNat) (h₂ : n.toNat ≤ 256) : (fresh n).Inv := by
  have hb : bufSize (fresh n) = n.toNat := by simp [fresh, bufSize]; omega
  refine ⟨construct_storageWf h₂ _, ⟨?_, hb ▸ h₂, ?_, fun _ => ?_⟩, ?_, ?_, ?_, ?_⟩
  · simp only [fresh, construct_initd, construct_nreg, Bool.true_eq_false, false_iff]
    intro h0; have := congrArg BitVec.toNat h0; simp at this; omega
  · rw [hb]; exact List.Perm.refl _
  · rw [hb]; simp [fresh]; omega
  · intro h; simp [fresh] at h
  · exact ⟨Nat.zero_le _, .inr rfl, fun _ => rfl⟩
  · exact ⟨by simp [fresh], by simp [fresh], by simp [fresh]⟩
  · simp [State.digestOk, fresh]

theorem listed5_inv : listed5.Inv := by constructor <;> decide
theorem badList5_inv : badList5.Inv := by constructor <;> decide
theorem full5_inv : full5.Inv := by constructor <;> decide
theorem deep5_inv : deep5.Inv := by constructor <;> decide
theorem top5_inv : top5.Inv := by constructor <;> decide
theorem nearTop5_inv : nearTop5.Inv := by constructor <;> decide
theorem faulted5_inv : faulted5.Inv := by constructor <;> decide
theorem waiting5_inv : waiting5.Inv := by constructor <;> decide
theorem digested32_inv : digested32.Inv := by constructor <;> decide +kernel
theorem digested256_inv : digested256.Inv := by constructor <;> decide +kernel

end Sys2Proof.Tests
end

