-- ==== Sys2Proof/Tests/Witnesses.lean ====
section
/-! SUPPORT. For each statement with hypotheses a concrete state and operands that meet them all, for each clause at a
boundary value of its range. -/

namespace Sys2Proof.Tests

open Sys2Proof Sys2Proof.Machine

/-! ### The hypotheses of the statements can be met: encoding, steps, ports, reset -/

theorem witness_legal_word : decode 0x10FFFFFF#32 = .ok (.rev 255#8 65535#16) := rfl
theorem witness_row_hits : ∃ r ∈ opcodeRows, r.hits 0x0100FFFF#32 = true := by decide
theorem witness_same_row :
    ∃ r₁ ∈ opcodeRows, ∃ r₂ ∈ opcodeRows, r₁.hits 0x0100FFFF#32 = true ∧ r₂.hits 0x0100FFFF#32 = true := by decide
theorem witness_illegal_word : ∃ e, decode 0x20000001#32 = .error e := ⟨_, rfl⟩
theorem witness_line_assembles : assemble (.rev 255 65535) = some [0x10FFFFFF#32] := by decide
theorem witness_codes_fit : ∀ v ∈ [0, 255], v < 256 := by decide
theorem witness_codes_do_not_fit : ∃ v ∈ [255, 256], 256 ≤ v := by decide
theorem witness_step_runs :
    ∃ s : State, s.rsp = none ∧ s.host = .command 0x24000040#32 :: [] ∧ decode 0x24000040#32 = .ok (.run 64#16) :=
  ⟨{ listed5 with host := [.command 0x24000040#32] }, rfl, rfl, rfl⟩
theorem witness_illegal_not_faulted :
    (∀ r ∈ opcodeRows, r.hits 0x03000000#32 = false) ∧ (fresh 5#16).fault = false := by decide
theorem witness_illegal_faulted : (∀ r ∈ opcodeRows, r.hits 0x01010005#32 = false) ∧ faulted5.fault = true := by decide
theorem witness_response_held : waiting5.rsp = some ⟨false, 3#32⟩ ∧ waiting5.host = [] := ⟨rfl, rfl⟩
theorem witness_response_before_command :
    ∃ s : State, s.rsp = some ⟨false, 3#32⟩ ∧ s.host = .command 0x50000000#32 :: [] :=
  ⟨{ waiting5 with host := [.command 0x50000000#32] }, rfl, rfl⟩
theorem witness_response_taken : ∃ s : State, s.rsp = some ⟨false, 3#32⟩ ∧ s.host = .takeResponse :: [] :=
  ⟨{ waiting5 with host := [.takeResponse] }, rfl, rfl⟩
theorem witness_idle : (fresh 5#16).rsp = none ∧ (fresh 5#16).host = [] := ⟨rfl, rfl⟩
theorem witness_idle_take : ∃ s : State, s.rsp = none ∧ s.host = .takeResponse :: [] :=
  ⟨{ fresh 5#16 with host := [.takeResponse] }, rfl, rfl⟩
theorem witness_reset : ∃ s : State, s.host = .reset :: [] ∧ s.fault = true ∧ s.rsp ≠ none :=
  ⟨{ faulted5 with host := [.reset], rsp := some ⟨true, 4#32⟩ }, rfl, rfl, by decide⟩
theorem witness_answers_success :
    ∃ t r, exec (.lpush 9#16) listed5 = .next t ∧ t.rsp = some r ∧ r.err = false ∧
      returnsNoValue (.lpush 9#16) = true := ⟨_, _, rfl, rfl, rfl, rfl⟩
theorem witness_answers_failure :
    ∃ t r, exec (.hexb 10#8) faulted5 = .next t ∧ t.rsp = some r ∧ r.err = true := ⟨_, _, rfl, rfl, rfl⟩

/-! ### Faults -/

theorem witness_first_fault : (fresh 5#16).fault = false := rfl
theorem witness_later_fault : faulted5.fault = true := rfl
theorem witness_refused : faulted5.fault = true ∧ acceptedWhileFaulted .cksum = false := ⟨rfl, rfl⟩
theorem witness_faulted_word : ∃ t, faulted5.fault = true ∧ execWord 0x50000000#32 faulted5 = .next t := ⟨_, rfl, rfl⟩
theorem witness_faulted_init : ∃ t, faulted5.fault = true ∧ execWord 0x01000100#32 faulted5 = .next t := ⟨_, rfl, rfl⟩
theorem witness_code_never_recorded : ∃ t, faulted5.cause ≠ 13#4 ∧ execWord 0x50000000#32 faulted5 = .next t :=
  ⟨_, by decide, rfl⟩
theorem witness_no_buffer_needed :
    State.reset.fault = false ∧ State.reset.initd = false ∧ needsNoBuffer (.hexd 0x3041#16) = true := ⟨rfl, rfl, rfl⟩
theorem witness_no_buffer :
    State.reset.fault = false ∧ State.reset.initd = false ∧ needsNoBuffer (.rdbuf 0#8) = false := ⟨rfl, rfl, rfl⟩
theorem witness_frozen :
    ∃ s t : State, s.fault = true ∧ s.host = .command 0x50000000#32 :: [] ∧ step s = .next t :=
  ⟨{ faulted5 with host := [.command 0x50000000#32] }, _, rfl, rfl, rfl⟩

/-! ### The commands, each clause at a boundary -/

theorem witness_init_least : 1 ≤ (1#16).toNat ∧ (1#16).toNat ≤ 256 := by decide
theorem witness_init_greatest : 1 ≤ (256#16).toNat ∧ (256#16).toNat ≤ 256 := by decide
theorem witness_init_zero : ((0#16).toNat = 0 ∨ 256 < (0#16).toNat) ∧ State.reset.fault = false := by decide
theorem witness_init_too_big : ((257#16).toNat = 0 ∨ 256 < (257#16).toNat) ∧ (fresh 5#16).fault = false := by decide
theorem witness_init_bad_while_faulted : ((257#16).toNat = 0 ∨ 256 < (257#16).toNat) ∧ faulted5.fault = true := by
  decide
theorem witness_not_init : ∃ t, (∀ n, Instr.lclr ≠ .init n) ∧ exec .lclr faulted5 = .next t :=
  ⟨_, (fun _ h => by cases h), rfl⟩
theorem witness_rdsr_first_bad : 12 ≤ (12#8).toNat ∧ (fresh 5#16).fault = false := by decide
theorem witness_rdsr_last_bad : 12 ≤ (255#8).toNat ∧ faulted5.fault = true := by decide
theorem witness_rev_whole_ring :
    (fresh 5#16).ready ∧ (fresh 5#16).Inv ∧ (4#8).toNat < bufSize (fresh 5#16) ∧ (5#16).toNat ≤ bufSize (fresh 5#16) :=
  ⟨by decide, fresh_inv (by decide) (by decide), by decide, by decide⟩
theorem witness_rev_greatest_ring :
    (fresh 256#16).ready ∧ (fresh 256#16).Inv ∧ (255#8).toNat < bufSize (fresh 256#16) ∧
      (256#16).toNat ≤ bufSize (fresh 256#16) :=
  ⟨⟨rfl, rfl⟩, fresh_inv (by decide) (by decide), by decide, by decide⟩
theorem witness_rev_bad_start : (fresh 5#16).ready ∧ bufSize (fresh 5#16) ≤ (5#8).toNat := by decide
theorem witness_rev_bad_length :
    (fresh 5#16).ready ∧ (4#8).toNat < bufSize (fresh 5#16) ∧ bufSize (fresh 5#16) < (6#16).toNat := by decide
theorem witness_rdbuf_last :
    (fresh 256#16).ready ∧ (fresh 256#16).Inv ∧ (255#8).toNat < bufSize (fresh 256#16) :=
  ⟨⟨rfl, rfl⟩, fresh_inv (by decide) (by decide), by decide⟩
theorem witness_rdbuf_past : (fresh 5#16).ready ∧ bufSize (fresh 5#16) ≤ (5#8).toNat := by decide
theorem witness_lclr : listed5.ready := by decide
theorem witness_lpush_room : deep5.ready ∧ deep5.Inv ∧ deep5.lcnt.toNat < deep5.config.ldepth :=
  ⟨by decide, deep5_inv, by decide⟩
/-- A list memory of two entries with room for one. -/
def almostFull5 : State := { full5 with config := ⟨1#16⟩ }
theorem witness_lpush_last_room :
    almostFull5.ready ∧ almostFull5.Inv ∧ almostFull5.lcnt.toNat < almostFull5.config.ldepth ∧
      almostFull5.lcnt.toNat + 1 = almostFull5.config.ldepth :=
  ⟨by decide, by constructor <;> decide, by decide, by decide⟩
theorem witness_lpush_full : full5.ready ∧ full5.lcnt.toNat = full5.config.ldepth := by decide
theorem witness_rdll_last : listed5.ready ∧ listed5.Inv ∧ (3#16).toNat < listed5.lcnt.toNat :=
  ⟨by decide, listed5_inv, by decide⟩
theorem witness_rdll_past : listed5.ready ∧ listed5.lcnt.toNat ≤ (4#16).toNat := by decide
theorem witness_step_ok :
    nearTop5.ready ∧ nearTop5.Inv ∧ (5#16).toNat ≤ bufSize nearTop5 ∧ nearTop5.skip ≠ 0xFFFFFFFF#32 :=
  ⟨by decide, nearTop5_inv, by decide, by decide⟩
theorem witness_step_oversize : top5.ready ∧ bufSize top5 < (6#16).toNat := by decide
theorem witness_step_overflow : top5.ready ∧ (5#16).toNat ≤ bufSize top5 ∧ top5.skip = 0xFFFFFFFF#32 := by decide
/-- Every entry of a list fits, decided entry by entry. -/
theorem all_fit {n : Nat} {ls : List Half} (h : ls.all (fun l => decide (l.toNat ≤ n)) = true) :
    ∀ l ∈ ls, l.toNat ≤ n := fun l hl => of_decide_eq_true (List.all_eq_true.1 h l hl)
theorem witness_run_ok :
    listed5.Inv ∧ listed5.ready ∧ (∀ l ∈ rounds (2#16).toNat listed5.ll, l.toNat ≤ bufSize listed5) ∧
      listed5.skip.toNat + (2#16).toNat * listed5.lcnt.toNat < 2 ^ 32 :=
  ⟨listed5_inv, by decide, all_fit (by decide), by decide +kernel⟩
theorem witness_run_no_rounds :
    badList5.Inv ∧ badList5.ready ∧ (∀ l ∈ rounds (0#16).toNat badList5.ll, l.toNat ≤ bufSize badList5) ∧
      badList5.skip.toNat + (0#16).toNat * badList5.lcnt.toNat < 2 ^ 32 :=
  ⟨badList5_inv, by decide, all_fit (by decide), by decide +kernel⟩
theorem witness_run_stops_oversize :
    badList5.Inv ∧ badList5.ready ∧ (rounds (1#16).toNat badList5.ll)[1]? = some 6#16 ∧
      (∀ x ∈ (rounds (1#16).toNat badList5.ll).take 1, x.toNat ≤ bufSize badList5) ∧
      badList5.skip.toNat + 1 < 2 ^ 32 ∧ bufSize badList5 < (6#16).toNat :=
  ⟨badList5_inv, by decide, by decide, all_fit (by decide), by decide +kernel, by decide⟩
/-- The state of `badList5` with the skip size one step below its top. -/
def badListTop5 : State := { badList5 with skip := 0xFFFFFFFE#32 }
theorem witness_run_stops_oversize_at_top :
    badListTop5.Inv ∧ badListTop5.ready ∧ (rounds (1#16).toNat badListTop5.ll)[1]? = some 6#16 ∧
      (∀ x ∈ (rounds (1#16).toNat badListTop5.ll).take 1, x.toNat ≤ bufSize badListTop5) ∧
      badListTop5.skip.toNat + 1 < 2 ^ 32 ∧
      (bufSize badListTop5 < (6#16).toNat ∧ badListTop5.skip.toNat + 1 = 2 ^ 32 - 1) :=
  ⟨by constructor <;> decide, by decide, by decide, all_fit (by decide), by decide +kernel,
    by decide, by decide +kernel⟩
/-- The state of `listed5` with the skip size four below `2 ^ 32`. -/
def listedTop5 : State := { listed5 with skip := 0xFFFFFFFA#32 }
theorem witness_run_stops_overflow :
    listedTop5.Inv ∧ listedTop5.ready ∧ (rounds (2#16).toNat listedTop5.ll)[5]? = some 4#16 ∧
      (∀ x ∈ (rounds (2#16).toNat listedTop5.ll).take 5, x.toNat ≤ bufSize listedTop5) ∧
      listedTop5.skip.toNat + 5 < 2 ^ 32 ∧ listedTop5.skip.toNat + 5 = 2 ^ 32 - 1 :=
  ⟨by constructor <;> decide, by decide, by decide, all_fit (by decide), by decide +kernel, by decide +kernel⟩
theorem witness_run_flattens : listed5.Inv ∧ listed5.ready := ⟨listed5_inv, by decide⟩
theorem witness_runs_add_up :
    listed5.Inv ∧ listed5.ready ∧ (0x8000#16).toNat + (0x7FFF#16).toNat ≤ 65535 :=
  ⟨listed5_inv, by decide, by decide⟩
theorem witness_reduce_greatest : (fresh 256#16).ready ∧ (fresh 256#16).Inv ∧ bufSize (fresh 256#16) % 16 = 0 :=
  ⟨⟨rfl, rfl⟩, fresh_inv (by decide) (by decide), by decide⟩
theorem witness_reduce_least : (fresh 16#16).ready ∧ (fresh 16#16).Inv ∧ bufSize (fresh 16#16) % 16 = 0 :=
  ⟨⟨rfl, rfl⟩, fresh_inv (by decide) (by decide), by decide⟩
theorem witness_reduce_misaligned : (fresh 255#16).ready ∧ bufSize (fresh 255#16) % 16 ≠ 0 :=
  ⟨⟨rfl, rfl⟩, by decide⟩
theorem witness_rddig_last :
    digested256.ready ∧ digested256.Inv ∧ digested256.dvalid = true ∧ (15#8).toNat < digested256.dcnt.toNat :=
  ⟨⟨rfl, rfl⟩, digested256_inv, rfl, by decide⟩
theorem witness_rddig_past : digested32.ready ∧ digested32.dvalid = true ∧ digested32.dcnt.toNat ≤ (2#8).toNat := by
  decide
theorem witness_rddig_no_digest : (fresh 16#16).ready ∧ (fresh 16#16).dvalid = false := by decide
theorem witness_hexb : State.reset.fault = false := rfl
theorem witness_hexd_listed :
    State.reset.fault = false ∧ hexCodes[0]? = some 0x30#8 ∧ hexCodes[15]? = some 0x66#8 := by decide
theorem witness_hexd_first_unlisted : State.reset.fault = false ∧ (0x41#8 ∉ hexCodes ∨ 0x30#8 ∉ hexCodes) := by decide
theorem witness_hexd_second_unlisted : State.reset.fault = false ∧ (0x30#8 ∉ hexCodes ∨ 0x67#8 ∉ hexCodes) := by decide
theorem witness_rdhex_last :
    digested256.ready ∧ digested256.Inv ∧ digested256.dvalid = true ∧ (31#8).toNat < 2 * digested256.dcnt.toNat :=
  ⟨⟨rfl, rfl⟩, digested256_inv, rfl, by decide⟩
theorem witness_rdhex_past :
    digested32.ready ∧ digested32.dvalid = true ∧ 2 * digested32.dcnt.toNat ≤ (4#8).toNat := by decide
theorem witness_rdhex_no_digest : (fresh 16#16).ready ∧ (fresh 16#16).dvalid = false := by decide
theorem witness_cksum_two : (fresh 2#16).ready ∧ (fresh 2#16).Inv ∧ 2 ≤ bufSize (fresh 2#16) :=
  ⟨by decide, fresh_inv (by decide) (by decide), by decide⟩
theorem witness_cksum_one : (fresh 1#16).ready ∧ bufSize (fresh 1#16) < 2 := by decide

/-! ### Laws, invariants, frames -/

/-- A buffer of five entries. -/
def five : List Byte := [0#8, 1#8, 2#8, 3#8, 4#8]
theorem witness_reversal : reverse 5 five 4 5 = some [2#8, 1#8, 0#8, 4#8, 3#8] := by decide
theorem witness_reversal_none : reverse 5 five 2 0 = some five := by decide
theorem witness_reversal_one : reverse 5 five 2 1 = some five := by decide
theorem witness_reversal_inside : reverse 5 five 2 3 = some [0#8, 1#8, 4#8, 3#8, 2#8] ∧ 2 + 3 ≤ 5 := by decide
theorem witness_reversal_wraps : reverse 5 five 4 2 = some [4#8, 1#8, 2#8, 3#8, 0#8] ∧ 5 < 4 + 2 := by decide
theorem witness_reversal_inside_untouched : 1 < 2 ∨ (2 + 3 ≤ 1 ∧ 1 < 5) := by decide
theorem witness_reversal_wraps_untouched : 4 + 2 - 5 ≤ 1 ∧ 1 < 4 := by decide
theorem witness_swaps_distinct : 0 < 1 ∧ 1 < 5 / 2 := by decide
theorem witness_reversal_by_swaps : 4 < 5 ∧ 5 ≤ 5 ∧ five.length = 5 := by decide
theorem witness_block_order : [1#8, 2#8].Perm [2#8, 1#8] := by decide
/-- A chain of gates over the elements of the second block of `mixed32`, in another order. -/
def gates : XorTree :=
  [18#8, 19#8, 20#8, 21#8, 22#8, 23#8, 24#8, 25#8, 26#8, 27#8, 28#8, 29#8, 30#8, 31#8, 0#8].foldl
    (fun t x => .gate t (.leaf x)) (.leaf 17#8)
theorem witness_block_gates : gates.leaves.Perm ((mixed32.buf.drop (16 * 1)).take 16) := by decide +kernel
theorem witness_block_own_elements :
    ∀ k, k < 16 → mixed32.buf[16 * 1 + k]? = (mixed32.buf.set 0 7#8)[16 * 1 + k]? := by decide +kernel
theorem witness_hex_decodes : unhex2 0x66#8 0x66#8 = some 255#8 := by decide
theorem witness_hex_same : hex2 255#8 = hex2 255#8 := rfl
theorem witness_hex_listed : 0x30#8 ∈ hexCodes ∧ 0x66#8 ∈ hexCodes := by decide
theorem witness_hex_round_trip :
    State.reset.fault = false ∧
      exec (.hexd 0x3061#16) State.reset = .next (answered ((10#8).setWidth 32) State.reset) := ⟨rfl, rfl⟩
theorem witness_invariant_step :
    ∃ s t : State, s.Inv ∧ s.host = .command 0x00000000#32 :: [] ∧ step s = .next t :=
  ⟨{ faulted5 with host := [.command 0x00000000#32] }, _, by constructor <;> decide, rfl, rfl⟩
theorem witness_answered_word :
    ∃ s : State, s.Inv ∧ s.rsp = none ∧ s.host = .command 0x50000000#32 :: [] :=
  ⟨{ listed5 with host := [.command 0x50000000#32] }, by constructor <;> decide, rfl, rfl⟩
theorem witness_registers_kept :
    ∃ t, exec .reduce mixed32 = .next t ∧ writesBuffer .reduce = false ∧ writesPosition .reduce = false ∧
      writesSequencer .reduce = false ∧ writesList .reduce = false ∧ (∀ n, Instr.reduce ≠ .init n) :=
  ⟨_, rfl, rfl, rfl, rfl, rfl, (fun _ h => by cases h)⟩
theorem witness_digest_kept :
    ∃ t, exec (.lpush 9#16) digested32 = .next t ∧ writesDigest (.lpush 9#16) = false := ⟨_, rfl, rfl⟩
theorem witness_read_succeeds :
    ∃ t r, onlyReads (.rdll 3#16) = true ∧ exec (.rdll 3#16) listed5 = .next t ∧ t.rsp = some r ∧ r.err = false :=
  ⟨_, _, rfl, rfl, rfl, rfl⟩
theorem witness_read_fails :
    ∃ t r, onlyReads (.rdll 4#16) = true ∧ exec (.rdll 4#16) listed5 = .next t ∧ t.rsp = some r ∧ r.err = true :=
  ⟨_, _, rfl, rfl, rfl, rfl⟩
theorem witness_rev_frame :
    ∃ t, exec (.rev 4#8 2#16) (fresh 5#16) = .next t ∧
      ∀ k, k < (2#16).toNat → 1 ≠ ringIndex (bufSize (fresh 5#16)) (4#8).toNat k := ⟨_, rfl, by decide⟩
theorem witness_step_frame :
    ∃ t, exec (.step 2#16) nearTop5 = .next t ∧
      ∀ k, k < (2#16).toNat → 4 ≠ ringIndex (bufSize nearTop5) nearTop5.cur.toNat k := ⟨_, rfl, by decide⟩
theorem witness_run_frame : ∃ t, exec (.run 1#16) badList5 = .next t := ⟨_, rfl⟩
theorem witness_list_frame :
    ∃ t, exec (.lpush 9#16) listed5 = .next t ∧ 3 < listed5.ll.length := ⟨_, rfl, by decide⟩
theorem witness_lclr_frame : ∃ t, exec .lclr listed5 = .next t := ⟨_, rfl⟩
theorem witness_reduce_frame : ∃ t, exec .reduce mixed32 = .next t := ⟨_, rfl⟩
theorem witness_init_frame :
    ∃ t r, exec (.init 0#16) listed5 = .next t ∧ t.rsp = some r ∧ r.err = true := ⟨_, _, rfl, rfl, rfl⟩
theorem witness_writer_succeeds :
    ∃ t r, writesBuffer (.rev 0#8 0#16) = true ∧ exec (.rev 0#8 0#16) digested32 = .next t ∧ t.rsp = some r ∧
      r.err = false := ⟨_, _, rfl, rfl, rfl, rfl⟩
theorem witness_run_faults_midway : badList5.ready ∧ ∃ t, exec (.run 1#16) badList5 = .next t :=
  ⟨by decide, _, rfl⟩

/-! ### Runs -/

theorem witness_same_registers :
    ∃ u t : State, u.rsp ≠ listed5.rsp ∧ u.toArch = listed5.toArch ∧ u.config = listed5.config ∧
      exec (.rdll 3#16) listed5 = .next t :=
  ⟨{ listed5 with rsp := some ⟨true, 4#32⟩ }, _, by decide, rfl, rfl, rfl⟩
theorem witness_starts_at_reset : startsRun State.reset := ⟨rfl, .inl rfl⟩
theorem witness_starts_after_init : startsRun (fresh 256#16) := ⟨rfl, .inr ⟨256#16, State.reset, by decide, by decide, rfl⟩⟩
theorem witness_run_from_invariants : listed5.Inv ∧ listed5.rsp = none := ⟨listed5_inv, rfl⟩
theorem witness_runs_compose :
    ∃ x y, runWords [0x01000005#32] State.reset = some x ∧ runWords [0x23000006#32] x.final = some y :=
  ⟨_, _, rfl, rfl⟩
theorem witness_run_result :
    ∃ x, (fresh 5#16).fault = false ∧ runWords [0x23000003#32] (fresh 5#16) = some x ∧
      (∃ y, runWords ([0x23000003#32].take 1) (fresh 5#16) = some y) := ⟨_, rfl, rfl, _, rfl⟩
theorem witness_run_ends_faulted :
    ∃ x, (fresh 5#16).fault = false ∧ runWords [0x23000006#32] (fresh 5#16) = some x ∧ x.final.fault = true :=
  ⟨_, rfl, rfl, rfl⟩
theorem witness_steps_of_a_run :
    ∃ (s : State) (x : RunResult), s.rsp = none ∧ s.host ≠ [] ∧ runResult s.host s = some x :=
  ⟨{ fresh 5#16 with host := [.command 0x23000003#32, .command 0x00000000#32, .takeResponse] }, _, rfl, by decide, rfl⟩

end Sys2Proof.Tests
end

section
/-! SUPPORT. A command is blind to the ports (spec/00_scope.md R7, spec/10_state.md R35): executing it commutes with
exchanging what waits there and what was received. The settled obligation stands at the end. -/

namespace Sys2Proof.Machine

/-! ### Exchanging the ports -/

/-- The registers and the depth of `s` behind the ports of `p`. -/
def withPorts (p s : State) : State := { p with toArch := s.toArch, config := s.config }

/-- The outcome of a command behind the host's side of the ports of `p`: the registers, the depth and the response are
the outcome's own. -/
def resultAtPorts (p : State) : Result → Result
  | .next t => .next { withPorts p t with rsp := t.rsp }
  | .fault r => .fault r
  | .refused r => .refused r

/-- A part of a command that goes on has not answered yet, so all of the ports are those of `p`. -/
def flowAtPorts (p : State) : Flow → Flow
  | .goOn s => .goOn (withPorts p s)
  | .ended r => .ended (resultAtPorts p r)

/-- What a command does to the registers, and its response, do not depend on the ports it stands behind. -/
def PortBlind (body : State → Result) : Prop :=
  ∀ p s, body (withPorts p s) = resultAtPorts p (body s)

@[simp] theorem withPorts_toArch (p s : State) : (withPorts p s).toArch = s.toArch := rfl
@[simp] theorem withPorts_bufSize (p s : State) : bufSize (withPorts p s) = bufSize s := rfl
@[simp] theorem withPorts_readBuf (p s : State) : readBuf (withPorts p s) = readBuf s := rfl
@[simp] theorem withPorts_readList (p s : State) : readList (withPorts p s) = readList s := rfl
@[simp] theorem withPorts_statusRegister (p s : State) : statusRegister (withPorts p s) = statusRegister s := rfl

/-- Two states with the same registers and depth differ in their ports only. -/
theorem withPorts_eq_self {u s : State} (ha : u.toArch = s.toArch) (hc : u.config = s.config) :
    withPorts u s = u := by
  unfold withPorts
  rw [← ha, ← hc]

/-! ### The shared operations -/

theorem respond_portBlind (v : Word) : PortBlind (respond v) := fun _ _ => rfl

theorem refuse_portBlind : PortBlind refuse := fun _ _ => rfl

theorem raise_portBlind (c : Cause) (info : Word) : PortBlind (raise c info) := by
  intro p s
  cases hf : s.fault with
  | true => rw [raise_of_faulted c info hf, raise_of_faulted c info (s := withPorts p s) hf]; rfl
  | false => rw [raise_of_not_faulted c info hf, raise_of_not_faulted c info (s := withPorts p s) hf]; rfl

theorem respondEntry_portBlind {w : Nat} (e : Option (BitVec w)) : PortBlind (respondEntry e) := by
  intro p s
  cases e <;> rfl

/-- A branch on what the ports do not show: both states take the same side. -/
theorem ite_commutes {α : Type} {f : α → α} {c : Prop} [Decidable c] {x y x' y' : α} (hx : x' = f x)
    (hy : y' = f y) : (if c then x' else y') = f (if c then x else y) := by
  rw [apply_ite f, hx, hy]

theorem unlessFaulted_portBlind {body : State → Result} (h : PortBlind body) :
    PortBlind fun s => unlessFaulted s body :=
  fun p s => ite_commutes (refuse_portBlind p s) (h p s)

theorem whenReady_portBlind {i : Instr} {body : State → Result} (h : PortBlind body) :
    PortBlind fun s => whenReady i s body :=
  unlessFaulted_portBlind fun p s => ite_commutes (h p s) (raise_portBlind _ _ p s)

/-! ### The parts of `STEP` and `RUN` -/

theorem finish_flowAtPorts (p : State) (f : Flow) : finish (flowAtPorts p f) = resultAtPorts p (finish f) := by
  cases f <;> rfl

theorem stepLen_withPorts (l : Half) (p s : State) : stepLen l (withPorts p s) = flowAtPorts p (stepLen l s) := by
  refine ite_commutes (congrArg Flow.ended (raise_portBlind _ _ p s))
    (ite_commutes (congrArg Flow.ended (raise_portBlind _ _ p s)) ?_)
  simp only [withPorts_toArch, withPorts_bufSize]
  cases reverse (bufSize s) s.buf s.cur.toNat l.toNat <;> rfl

/-- Induction over the entries of a pass (R108). -/
theorem runPass_withPorts (k : Nat) (p s : State) : runPass k (withPorts p s) = flowAtPorts p (runPass k s) := by
  induction k generalizing s with
  | zero => rfl
  | succ k ih =>
    simp only [runPass, withPorts_toArch, withPorts_readList, stepLen_withPorts]
    cases readList s s.lidx.toNat with
    | none => rfl
    | some l =>
      dsimp only
      cases stepLen l s with
      | ended r => rfl
      | goOn t => exact ih { t with lidx := t.lidx + 1#17 }

/-- Induction over the rounds (R108). -/
theorem runRounds_withPorts (k : Nat) (p s : State) :
    runRounds k (withPorts p s) = flowAtPorts p (runRounds k s) := by
  induction k generalizing s with
  | zero => rfl
  | succ k ih =>
    simp only [runRounds, withPorts_toArch, runPass_withPorts]
    cases runPass s.lcnt.toNat s with
    | ended r => rfl
    | goOn t => exact ih { t with lidx := 0#17, rnd := t.rnd + 1#16 }

/-! ### The commands -/

theorem execInit_portBlind (n : Half) : PortBlind (execInit n) :=
  fun p s => ite_commutes (raise_portBlind _ _ p s) rfl

theorem execRdsr_portBlind (r : Byte) : PortBlind (execRdsr r) := by
  intro p s
  simp only [execRdsr, withPorts_statusRegister]
  cases statusRegister s r.toNat with
  | some v => rfl
  | none => exact raise_portBlind _ _ p s

theorem execRev_portBlind (c : Byte) (l : Half) : PortBlind (execRev c l) := by
  refine whenReady_portBlind fun p s =>
    ite_commutes (raise_portBlind _ _ p s) (ite_commutes (raise_portBlind _ _ p s) ?_)
  simp only [withPorts_toArch, withPorts_bufSize]
  cases reverse (bufSize s) s.buf c.toNat l.toNat <;> rfl

theorem execRdbuf_portBlind (i : Byte) : PortBlind (execRdbuf i) :=
  whenReady_portBlind fun p s => ite_commutes (raise_portBlind _ _ p s) (respondEntry_portBlind _ p s)

theorem execLclr_portBlind : PortBlind execLclr := whenReady_portBlind fun _ _ => rfl

theorem execLpush_portBlind (l : Half) : PortBlind (execLpush l) :=
  whenReady_portBlind fun p s => ite_commutes (raise_portBlind _ _ p s) rfl

theorem execRdll_portBlind (j : Half) : PortBlind (execRdll j) :=
  whenReady_portBlind fun p s => ite_commutes (raise_portBlind _ _ p s) (respondEntry_portBlind _ p s)

theorem execStep_portBlind (l : Half) : PortBlind (execStep l) := by
  refine whenReady_portBlind fun p s =>
    ite_commutes (raise_portBlind _ _ p s) (ite_commutes (raise_portBlind _ _ p s) ?_)
  have hstep := stepLen_withPorts l p (clearDigest s)
  exact (congrArg finish hstep).trans (finish_flowAtPorts ..)

theorem execRun_portBlind (r : Half) : PortBlind (execRun r) := by
  refine whenReady_portBlind fun p s => ?_
  have hrounds := runRounds_withPorts r.toNat p { clearDigest s with rnd := 0#16, lidx := 0#17 }
  exact (congrArg finish hrounds).trans (finish_flowAtPorts ..)

theorem execReduce_portBlind : PortBlind execReduce :=
  whenReady_portBlind fun p s => ite_commutes (raise_portBlind _ _ p s) (ite_commutes rfl rfl)

theorem execRddig_portBlind (i : Byte) : PortBlind (execRddig i) :=
  whenReady_portBlind fun p s => ite_commutes (raise_portBlind _ _ p s)
    (ite_commutes (raise_portBlind _ _ p s) (respondEntry_portBlind _ p s))

theorem execHexb_portBlind (b : Byte) : PortBlind (execHexb b) :=
  unlessFaulted_portBlind (respond_portBlind _)

theorem execHexd_portBlind (h : Half) : PortBlind (execHexd h) := by
  refine unlessFaulted_portBlind fun p s => ?_
  cases unhex2 (firstChar h) (secondChar h) with
  | some b => rfl
  | none => exact raise_portBlind _ _ p s

theorem execRdhex_portBlind (j : Byte) : PortBlind (execRdhex j) :=
  whenReady_portBlind fun p s => ite_commutes (raise_portBlind _ _ p s)
    (ite_commutes (raise_portBlind _ _ p s) (respondEntry_portBlind _ p s))

theorem execCksum_portBlind : PortBlind execCksum := by
  refine whenReady_portBlind fun p s => ite_commutes (raise_portBlind _ _ p s) ?_
  rw [withPorts_readBuf]
  cases readBuf s 0 <;> cases readBuf s 1 <;> rfl

theorem exec_portBlind (i : Instr) : PortBlind (exec i) := by
  cases i with
  | nop => exact respond_portBlind 0#32
  | init n => exact execInit_portBlind n
  | rdsr r => exact execRdsr_portBlind r
  | rev c l => exact execRev_portBlind c l
  | rdbuf k => exact execRdbuf_portBlind k
  | lclr => exact execLclr_portBlind
  | lpush l => exact execLpush_portBlind l
  | rdll j => exact execRdll_portBlind j
  | step l => exact execStep_portBlind l
  | run r => exact execRun_portBlind r
  | reduce => exact execReduce_portBlind
  | rddig k => exact execRddig_portBlind k
  | hexb b => exact execHexb_portBlind b
  | hexd h => exact execHexd_portBlind h
  | rdhex j => exact execRdhex_portBlind j
  | cksum => exact execCksum_portBlind

/-- Settles O55: the second state is the first one behind other ports, and every command is blind to them. -/
theorem commandsDependOnTheRegistersOnly : Obligations.CommandsDependOnTheRegistersOnly := by
  unfold Obligations.CommandsDependOnTheRegistersOnly
  intro i s u t harch hconfig hexec
  have hu : exec i u = resultAtPorts u (.next t) := by
    rw [← hexec, ← exec_portBlind i u s, withPorts_eq_self harch hconfig]
  exact ⟨_, hu, rfl, rfl⟩

end Sys2Proof.Machine
end

section
/-! SUPPORT. The reversal read entry by entry (spec/40_buffer_reversal.md R90): every position receives the entry of its
mirror position, and mirroring twice leads back, so a reversal rearranges the buffer. -/

namespace Sys2Proof.Machine

/-! ### Positions on the ring -/

/-- How far position `p` lies after position `c` on a ring of `n`: the inverse of ring addressing (R51). -/
def ringOffset (n c p : Nat) : Nat := (p + n - c) % n

/-- The position whose old entry the reversal of `l` entries from `c` brings to position `p` (R90). -/
def mirror (n c l p : Nat) : Nat :=
  if ringOffset n c p < l then ringIndex n c (l - 1 - ringOffset n c p) else p

theorem mod_of_lt_two_mul {x n : Nat} (h : x < 2 * n) : x % n = if x < n then x else x - n := by
  split
  · exact Nat.mod_eq_of_lt ‹_›
  · rw [Nat.mod_eq_sub_mod (by omega), Nat.mod_eq_of_lt (by omega)]

theorem ringIndex_lt {n c : Nat} (hc : c < n) (k : Nat) : ringIndex n c k < n :=
  Nat.mod_lt _ (by omega)

theorem ringIndex_ringOffset {n c p : Nat} (hc : c < n) (hp : p < n) : ringIndex n c (ringOffset n c p) = p := by
  unfold ringIndex ringOffset
  rw [mod_of_lt_two_mul (x := p + n - c) (by omega)]
  split <;> rw [mod_of_lt_two_mul (by omega)] <;> split <;> omega

theorem ringOffset_ringIndex {n c k : Nat} (hc : c < n) (hk : k < n) : ringOffset n c (ringIndex n c k) = k := by
  unfold ringIndex ringOffset
  rw [mod_of_lt_two_mul (x := c + k) (by omega)]
  split <;> rw [mod_of_lt_two_mul (by omega)] <;> split <;> omega

theorem mirror_lt {n c l p : Nat} (hc : c < n) (hp : p < n) : mirror n c l p < n := by
  unfold mirror
  split
  · exact ringIndex_lt hc _
  · exact hp

theorem mirror_mirror {n c l p : Nat} (hc : c < n) (hl : l ≤ n) (hp : p < n) :
    mirror n c l (mirror n c l p) = p := by
  by_cases h : ringOffset n c p < l
  · have hback : ringOffset n c (mirror n c l p) = l - 1 - ringOffset n c p := by
      rw [mirror, if_pos h, ringOffset_ringIndex hc (by omega)]
    rw [mirror, hback, if_pos (by omega), show l - 1 - (l - 1 - ringOffset n c p) = ringOffset n c p by omega,
      ringIndex_ringOffset hc hp]
  · have hfix : mirror n c l p = p := if_neg h
    rw [hfix, hfix]

/-! ### The loop of assignments -/

/-- One assignment of the loop changes the entry at offset `k` only. -/
theorem reverseWrite_get {n c l k p : Nat} {old buf : List Byte} (hc : c < n) (hk : k < n) (hold : old.length = n)
    (hbuf : buf.length = n) (hp : p < n) :
    (reverseWrite n c l old buf k)[p]? =
      if ringOffset n c p = k then old[ringIndex n c (l - 1 - k)]? else buf[p]? := by
  have hv : ringIndex n c (l - 1 - k) < old.length := hold ▸ ringIndex_lt hc _
  have hpos : ringIndex n c k = p ↔ ringOffset n c p = k :=
    ⟨fun h => h ▸ ringOffset_ringIndex hc hk, fun h => h ▸ ringIndex_ringOffset hc hp⟩
  simp only [reverseWrite, List.getElem?_eq_getElem hv, List.getElem?_set, hpos, hbuf, ringIndex_lt hc, if_true]

/-- The entries after the first `k` assignments, by induction on `k`. -/
theorem reverseWrites_get {n c l p : Nat} {old : List Byte} (hc : c < n) (hl : l ≤ n) (hold : old.length = n)
    (hp : p < n) (k : Nat) (hk : k ≤ l) :
    ((List.range k).foldl (reverseWrite n c l old) old)[p]? =
      if ringOffset n c p < k then old[ringIndex n c (l - 1 - ringOffset n c p)]? else old[p]? := by
  induction k with
  | zero => simp
  | succ k ih =>
    rw [List.range_succ, List.foldl_append, List.foldl_cons, List.foldl_nil,
      reverseWrite_get hc (by omega) hold ((reverseWrites_length ..).trans hold) hp, ih (by omega)]
    by_cases h : ringOffset n c p = k
    · simp [h]
    · simp only [h, if_false, show ringOffset n c p < k + 1 ↔ ringOffset n c p < k by omega]

/-- After a reversal every position holds the old entry of its mirror position (R90). -/
theorem reverse_get {n c l p : Nat} {old new : List Byte} (h : reverse n old c l = some new) (hp : p < n) :
    new[p]? = old[mirror n c l p]? := by
  obtain ⟨hc, hl, hold⟩ := reverse_domain h
  rw [reverse, if_pos ⟨hc, hl, hold⟩] at h
  cases h
  rw [reverseWrites_get hc hl hold hp l le_rfl, mirror]
  split <;> rfl

/-! ### A reversal rearranges the buffer -/

/-- Mirroring as a permutation of the positions. -/
def mirrorPerm {n c l : Nat} (hc : c < n) (hl : l ≤ n) : Equiv.Perm (Fin n) :=
  Function.Involutive.toPerm (fun p => ⟨mirror n c l p, mirror_lt hc p.isLt⟩)
    fun p => Fin.ext (mirror_mirror hc hl p.isLt)

/-- `Reverse` only rearranges the entries (R90). -/
theorem reverse_perm {n c l : Nat} {old new : List Byte} (h : reverse n old c l = some new) : new.Perm old := by
  obtain ⟨hc, hl, rfl⟩ := reverse_domain h
  have hnew : new = List.ofFn (old.get ∘ mirrorPerm hc hl) := by
    refine List.ext_getElem? fun p => ?_
    by_cases hp : p < old.length
    · rw [reverse_get h hp, List.getElem?_eq_getElem (mirror_lt hc hp), List.getElem?_ofFn, dif_pos hp]
      rfl
    · rw [List.getElem?_eq_none (by rw [reverse_length h]; omega), List.getElem?_eq_none (by simp; omega)]
  rw [hnew]
  exact ((mirrorPerm hc hl).ofFn_comp_perm old.get).trans (by rw [List.ofFn_get])

end Sys2Proof.Machine
end

section
/-! SUPPORT. Everything a command that answers can do to the state, said once for all sixteen commands
(spec/30_encoding.md R75), and the induction over the passes of `RUN` (spec/41_scrambler.md R108). -/

namespace Sys2Proof.Machine

/-! ### The passes of `RUN` -/

/-- The state in which the passes of `RUN` start: no digest, the sequencer at its first entry (R108). -/
def startOfRun (s : State) : State := { clearDigest s with rnd := 0#16, lidx := 0#17 }

/-- A property of states that a whole per-length step and the movements of the sequencer keep. -/
structure PassKeeps (P : State → Prop) : Prop where
  step : ∀ l s t, stepLen l s = .goOn t → P s → P t
  move : ∀ s k r, P s → P { s with lidx := k, rnd := r }

/-- A flow goes on from a state with `P`, or ends in the entry of a fault at a state with `P`, whose sequencer stands at
an entry of the list (R108). Unlike `Flow.leads` it says that the fault comes last. -/
def Flow.stays (P : State → Prop) : Flow → Prop
  | .goOn s => P s
  | .ended r => ∀ t, r = .next t → ∃ c info u l,
      c ≠ .faulted ∧ P u ∧ readList u u.lidx.toNat = some l ∧ t = faultEntry c info u

/-- A per-length step goes on exactly when it is a whole step (R105). -/
theorem stepLen_goOn_iff {l : Half} {s t : State} :
    stepLen l s = .goOn t ↔
      ∃ b, l.toNat ≤ bufSize s ∧ s.skip ≠ skipMax ∧ reverse (bufSize s) s.buf s.cur.toNat l.toNat = some b ∧
        t = { s with
          buf := b
          cur := BitVec.ofNat 8 ((s.cur.toNat + l.toNat + s.skip.toNat) % bufSize s)
          skip := s.skip + 1#32 } := by
  constructor
  · intro h
    rcases stepLen_cases l s with ⟨-, e⟩ | ⟨-, -, e⟩ | ⟨-, -, -, e⟩ | ⟨b, hl, hs, hb, e⟩ <;> rw [e] at h <;> cases h
    exact ⟨b, hl, hs, hb, rfl⟩
  · rintro ⟨b, hl, hs, hb, rfl⟩
    rw [stepLen, if_neg (Nat.not_lt.2 hl), if_neg hs, hb]

/-- A per-length step that ends its command enters a fault at the state it started from (R105). -/
theorem stepLen_ended {l : Half} {s t : State} (h : stepLen l s = .ended (.next t)) :
    ∃ c info, c ≠ .faulted ∧ t = faultEntry c info s := by
  rcases stepLen_cases l s with ⟨-, e⟩ | ⟨-, -, e⟩ | ⟨-, -, -, e⟩ | ⟨b, -, -, -, e⟩ <;> rw [e] at h <;> cases h
  · exact ⟨.oversize, _, by decide, rfl⟩
  · exact ⟨.skipOvf, _, by decide, rfl⟩

/-- Induction over the entries of a pass. -/
theorem runPass_stays {P : State → Prop} (h : PassKeeps P) (k : Nat) (s : State) (hs : P s) :
    (runPass k s).stays P := by
  induction k generalizing s with
  | zero => exact hs
  | succ k ih =>
    unfold runPass
    cases hl : readList s s.lidx.toNat with
    | none => intro t ht; cases ht
    | some l =>
      dsimp only
      cases hf : stepLen l s with
      | goOn t => exact ih _ (h.move t _ t.rnd (h.step l s t hf hs))
      | ended r =>
        rintro t rfl
        obtain ⟨c, info, hc, rfl⟩ := stepLen_ended hf
        exact ⟨c, info, s, l, hc, hs, hl, rfl⟩

/-- Induction over the rounds. -/
theorem runRounds_stays {P : State → Prop} (h : PassKeeps P) (k : Nat) (s : State) (hs : P s) :
    (runRounds k s).stays P := by
  induction k generalizing s with
  | zero => exact hs
  | succ k ih =>
    have hp := runPass_stays h s.lcnt.toNat s hs
    unfold runRounds
    cases hf : runPass s.lcnt.toNat s with
    | ended r => rw [hf] at hp; exact hp
    | goOn t => rw [hf] at hp; exact ih _ (h.move t _ _ hp)

/-- Rounds that all end leave the sequencer at the first entry, where they started (R108). -/
theorem runRounds_lidx {k : Nat} {s t : State} (h : runRounds k s = .goOn t) (hs : s.lidx = 0#17) : t.lidx = 0#17 := by
  induction k generalizing s with
  | zero => cases h; exact hs
  | succ k ih =>
    unfold runRounds at h
    cases hf : runPass s.lcnt.toNat s with
    | ended r => rw [hf] at h; cases h
    | goOn u => rw [hf] at h; exact ih h rfl

/-- Everything a `RUN` that answers can do: all rounds are done and the sequencer is back at the first entry, or the step
of an entry of the list faults; `P` holds there. -/
theorem run_cases {P : State → Prop} (h : PassKeeps P) {k : Nat} {s t : State} (hs : P (startOfRun s))
    (ht : finish (runRounds k (startOfRun s)) = .next t) :
    (∃ u, P u ∧ u.lidx = 0#17 ∧ t = answered 0#32 u) ∨
    (∃ c info u l, c ≠ .faulted ∧ P u ∧ readList u u.lidx.toNat = some l ∧ t = faultEntry c info u) := by
  have hstays := runRounds_stays h k _ hs
  cases hf : runRounds k (startOfRun s) with
  | goOn u =>
    rw [hf] at hstays ht
    cases ht
    exact .inl ⟨u, hstays, runRounds_lidx hf rfl, rfl⟩
  | ended r =>
    rw [hf] at hstays ht
    exact .inr (hstays t ht)

/-! ### The effects of the commands -/

/-- The registers after a `REDUCE` of every block (R121). -/
def withDigest (s : State) : State :=
  { s with
    dig := blocks s.buf (bufSize s)
    dcnt := BitVec.ofNat 5 (bufSize s / blockSize)
    dvalid := true }

/-- `Effect i s t`: the command `i`, from `s`, answers and leaves `t`. A command that only reads answers, any command may
be refused or fault, and the others have their own effect. -/
inductive Effect : Instr → State → State → Prop where
  | answers {i s} (v : Word) : onlyReads i = true → Effect i s (answered v s)
  | rejects {i s} (code : BitVec 4) : s.fault = true → Effect i s (rejected code s)
  | traps {i s} (c : Cause) (info : Word) :
      s.fault = false → c ≠ .faulted → Effect i s (trapped (causeCode c) info s)
  | init {s n} : n.toNat ≠ 0 → n.toNat ≤ nMax → Effect (.init n) s (answered 0#32 (construct n s))
  | rev {s c l b} : s.ready → reverse (bufSize s) s.buf c.toNat l.toNat = some b →
      Effect (.rev c l) s (answered 0#32 { clearDigest s with buf := b })
  | lclr {s} : s.ready → Effect .lclr s (answered 0#32 { s with ll := [], lcnt := 0#17 })
  | lpush {s l} : s.ready → s.lcnt.toNat ≠ s.config.ldepth →
      Effect (.lpush l) s (answered 0#32 { s with ll := s.ll ++ [l], lcnt := s.lcnt + 1#17 })
  | step {s u l} : s.ready → stepLen l (clearDigest s) = .goOn u → Effect (.step l) s (answered 0#32 u)
  | run {s t r} : s.ready → finish (runRounds r.toNat (startOfRun s)) = .next t → Effect (.run r) s t
  | reduce {s} : s.ready → bufSize s % blockSize = 0 → Effect .reduce s (answered 0#32 (withDigest s))

theorem Effect.of_faultEntry {i : Instr} {s : State} {c : Cause} (info : Word) (hc : c ≠ .faulted) :
    Effect i s (faultEntry c info s) := by
  cases hf : s.fault with
  | true => exact faultEntry_of_faulted c info hf ▸ .rejects _ hf
  | false => exact faultEntry_of_not_faulted c info hf ▸ .traps c info hf hc

theorem Effect.of_raise {i : Instr} {s t : State} {c : Cause} {info : Word} (h : raise c info s = .next t)
    (hc : c ≠ .faulted) : Effect i s t := by
  cases h
  exact .of_faultEntry info hc

theorem Effect.of_respondEntry {i : Instr} {w : Nat} {e : Option (BitVec w)} {s t : State}
    (h : respondEntry e s = .next t) (hi : onlyReads i = true) : Effect i s t := by
  rcases respondEntry_cases e s with ⟨v, -, hv⟩ | ⟨-, hn⟩
  · rw [hv] at h; cases h; exact .answers _ hi
  · rw [hn] at h; cases h

/-- Step 2 of the decode order: refuse, or the command's own rule (R75). -/
theorem Effect.of_unlessFaulted {i : Instr} {s t : State} {body : State → Result}
    (h : unlessFaulted s body = .next t) (hbody : s.fault = false → body s = .next t → Effect i s t) :
    Effect i s t := by
  rcases unlessFaulted_cases s body with ⟨hf, e⟩ | ⟨hf, e⟩ <;> rw [e] at h
  · cases h; exact .rejects _ hf
  · exact hbody hf h

/-- Steps 2 and 3 of the decode order: refuse, fault, or the command's own rule (R75). -/
theorem Effect.of_whenReady {i : Instr} {s t : State} {body : State → Result}
    (h : whenReady i s body = .next t) (hbody : s.ready → body s = .next t → Effect i s t) : Effect i s t := by
  rcases whenReady_cases i s body with ⟨hf, e⟩ | ⟨hf, -, e⟩ | ⟨hr, e⟩ <;> rw [e] at h
  · cases h; exact .rejects _ hf
  · cases h; exact .traps .noInit _ hf (by decide)
  · exact hbody hr h

/-! ### System and hex commands -/

theorem execInit_effect {n : Half} {s t : State} (h : execInit n s = .next t) : Effect (.init n) s t := by
  unfold execInit at h
  split at h
  · exact .of_raise h (by decide)
  · cases h; exact .init (by omega) (by omega)

theorem execRdsr_effect {r : Byte} {s t : State} (h : execRdsr r s = .next t) : Effect (.rdsr r) s t := by
  unfold execRdsr at h
  split at h
  · cases h; exact .answers _ rfl
  · exact .of_raise h (by decide)

theorem execHexb_effect {b : Byte} {s t : State} (h : execHexb b s = .next t) : Effect (.hexb b) s t :=
  .of_unlessFaulted h fun _ h => by cases h; exact .answers _ rfl

theorem execHexd_effect {x : Half} {s t : State} (h : execHexd x s = .next t) : Effect (.hexd x) s t := by
  refine .of_unlessFaulted h fun _ h => ?_
  split at h
  · cases h; exact .answers _ rfl
  · exact .of_raise h (by decide)

/-! ### Commands that read the storage -/

theorem execRdbuf_effect {k : Byte} {s t : State} (h : execRdbuf k s = .next t) : Effect (.rdbuf k) s t := by
  refine .of_whenReady h fun _ h => ?_
  split at h
  · exact .of_raise h (by decide)
  · exact .of_respondEntry h rfl

theorem execRdll_effect {j : Half} {s t : State} (h : execRdll j s = .next t) : Effect (.rdll j) s t := by
  refine .of_whenReady h fun _ h => ?_
  split at h
  · exact .of_raise h (by decide)
  · exact .of_respondEntry h rfl

theorem execRddig_effect {k : Byte} {s t : State} (h : execRddig k s = .next t) : Effect (.rddig k) s t := by
  refine .of_whenReady h fun _ h => ?_
  split at h
  · exact .of_raise h (by decide)
  · split at h
    · exact .of_raise h (by decide)
    · exact .of_respondEntry h rfl

theorem execRdhex_effect {j : Byte} {s t : State} (h : execRdhex j s = .next t) : Effect (.rdhex j) s t := by
  refine .of_whenReady h fun _ h => ?_
  split at h
  · exact .of_raise h (by decide)
  · split at h
    · exact .of_raise h (by decide)
    · exact .of_respondEntry h rfl

theorem execCksum_effect {s t : State} (h : execCksum s = .next t) : Effect .cksum s t := by
  refine .of_whenReady h fun _ h => ?_
  split at h
  · exact .of_raise h (by decide)
  · split at h
    · cases h; exact .answers _ rfl
    · cases h

/-! ### Commands that write the storage -/

theorem execRev_effect {c : Byte} {l : Half} {s t : State} (h : execRev c l s = .next t) :
    Effect (.rev c l) s t := by
  refine .of_whenReady h fun hr h => ?_
  split at h
  · exact .of_raise h (by decide)
  · split at h
    · exact .of_raise h (by decide)
    · split at h
      · rename_i b hb; cases h; exact .rev hr hb
      · cases h

theorem execLclr_effect {s t : State} (h : execLclr s = .next t) : Effect .lclr s t :=
  .of_whenReady h fun hr h => by cases h; exact .lclr hr

theorem execLpush_effect {l : Half} {s t : State} (h : execLpush l s = .next t) : Effect (.lpush l) s t := by
  refine .of_whenReady h fun hr h => ?_
  split at h
  · exact .of_raise h (by decide)
  · rename_i hroom; cases h; exact .lpush hr hroom

theorem execStep_effect {l : Half} {s t : State} (h : execStep l s = .next t) : Effect (.step l) s t := by
  refine .of_whenReady h fun hr h => ?_
  split at h
  · exact .of_raise h (by decide)
  · rename_i hl
    split at h
    · exact .of_raise h (by decide)
    · rename_i hs
      rcases stepLen_cases l (clearDigest s) with ⟨hl', -⟩ | ⟨-, hs', -⟩ | ⟨-, -, -, e⟩ | ⟨b, -, -, -, e⟩
      · exact absurd hl' hl
      · exact absurd hs' hs
      · rw [e] at h; cases h
      · rw [e] at h; cases h; exact .step hr e

theorem execRun_effect {r : Half} {s t : State} (h : execRun r s = .next t) : Effect (.run r) s t :=
  .of_whenReady h .run

theorem execReduce_effect {s t : State} (h : execReduce s = .next t) : Effect .reduce s t := by
  refine .of_whenReady h fun hr h => ?_
  split at h
  · exact .of_raise h (by decide)
  · rename_i hblocks
    split at h
    · cases h
    · cases h; exact .reduce hr (not_not.1 hblocks)

/-- Everything a command that answers can do to the state. -/
theorem exec_effect {i : Instr} {s t : State} (h : exec i s = .next t) : Effect i s t := by
  cases i with
  | nop => cases h; exact .answers _ rfl
  | init n => exact execInit_effect h
  | rdsr r => exact execRdsr_effect h
  | rev c l => exact execRev_effect h
  | rdbuf k => exact execRdbuf_effect h
  | lclr => exact execLclr_effect h
  | lpush l => exact execLpush_effect h
  | rdll j => exact execRdll_effect h
  | step l => exact execStep_effect h
  | run r => exact execRun_effect h
  | reduce => exact execReduce_effect h
  | rddig k => exact execRddig_effect h
  | hexb b => exact execHexb_effect h
  | hexd x => exact execHexd_effect h
  | rdhex j => exact execRdhex_effect h
  | cksum => exact execCksum_effect h

end Sys2Proof.Machine
end

section
/-! SUPPORT. Which registers each command may change (spec/10_state.md R20), and what no step changes (R32). The settled
obligations stand after the lemmas they need. -/

namespace Sys2Proof.Machine

/-- `u` differs from `s` at most in the buffer, the position on it and the sequencer: what the parts of `STEP` and `RUN`
write (R105, R108). -/
def Moved (s u : State) : Prop :=
  ∃ b c k r i, u = { s with buf := b, cur := c, skip := k, rnd := r, lidx := i }

theorem stepLen_moved {l : Half} {s u : State} (h : stepLen l s = .goOn u) : Moved s u := by
  obtain ⟨b, -, -, -, rfl⟩ := stepLen_goOn_iff.1 h
  exact ⟨_, _, _, _, _, rfl⟩

theorem moved_passKeeps (s : State) : PassKeeps (Moved s) where
  step _ _ _ ht hu := by
    obtain ⟨_, _, _, _, _, rfl⟩ := stepLen_moved ht
    obtain ⟨_, _, _, _, _, rfl⟩ := hu
    exact ⟨_, _, _, _, _, rfl⟩
  move _ _ _ hu := by
    obtain ⟨_, _, _, _, _, rfl⟩ := hu
    exact ⟨_, _, _, _, _, rfl⟩

/-- A `RUN` answers success or enters its first fault, from a state it has only moved (R108). -/
theorem run_moved {k : Nat} {s t : State} (hf : s.fault = false)
    (h : finish (runRounds k (startOfRun s)) = .next t) :
    ∃ u, Moved (clearDigest s) u ∧ (t = answered 0#32 u ∨ ∃ code info, t = trapped code info u) := by
  rcases run_cases (moved_passKeeps (clearDigest s)) ⟨_, _, _, _, _, rfl⟩ h with
    ⟨u, hu, -, rfl⟩ | ⟨c, info, u, -, -, hu, -, rfl⟩
  · exact ⟨u, hu, .inl rfl⟩
  · have hfu : u.fault = false := by obtain ⟨_, _, _, _, _, rfl⟩ := hu; exact hf
    exact ⟨u, hu, .inr ⟨_, info, faultEntry_of_not_faulted c info hfu⟩⟩

/-- Settles O45: each effect of a command, read register by register. -/
theorem registersAreWrittenAsTabled : Obligations.RegistersAreWrittenAsTabled := by
  unfold Obligations.RegistersAreWrittenAsTabled
  intro i s t hexec
  cases exec_effect hexec with
  | answers v _ => simp
  | rejects code _ => simp
  | traps c info hf _ => simp [hf]
  | init _ _ => simp [writesBuffer, writesPosition, writesSequencer, writesList, writesDigest]
  | rev _ _ => simp [writesBuffer, writesDigest]
  | lclr _ => simp [writesList]
  | lpush _ _ => simp [writesList]
  | step _ hstep =>
    obtain ⟨b, -, -, -, rfl⟩ := stepLen_goOn_iff.1 hstep
    simp [writesBuffer, writesPosition, writesDigest]
  | run hr hrun =>
    obtain ⟨hf, -⟩ := hr
    obtain ⟨_, ⟨_, _, _, _, _, rfl⟩, rfl | ⟨code, info, rfl⟩⟩ := run_moved hf hrun <;>
      simp [writesBuffer, writesPosition, writesSequencer, writesDigest, writesList, hf]
  | reduce _ _ => simp [writesDigest, withDigest]

/-- A command leaves the configuration, the host's actions and the received responses (R32, R35). -/
theorem exec_ports {i : Instr} {s t : State} (h : exec i s = .next t) :
    t.config = s.config ∧ t.host = s.host ∧ t.delivered = s.delivered := by
  cases exec_effect h with
  | answers _ _ | rejects _ _ | traps _ _ _ _ | init _ _ | rev _ _ | lclr _ | lpush _ _ | reduce _ _ =>
    exact ⟨rfl, rfl, rfl⟩
  | step _ hstep =>
    obtain ⟨b, -, -, -, rfl⟩ := stepLen_goOn_iff.1 hstep
    exact ⟨rfl, rfl, rfl⟩
  | run hr hrun =>
    obtain ⟨_, ⟨_, _, _, _, _, rfl⟩, rfl | ⟨code, info, rfl⟩⟩ := run_moved hr.1 hrun <;> exact ⟨rfl, rfl, rfl⟩

/-- An executed word leaves them too: an illegal one only enters a fault (R151). -/
theorem execWord_ports {w : Word} {s t : State} (h : execWord w s = .next t) :
    t.config = s.config ∧ t.host = s.host ∧ t.delivered = s.delivered := by
  rcases execWord_cases w s with ⟨i, -, e⟩ | ⟨_, -, e⟩ <;> rw [e] at h
  · exact exec_ports h
  · cases h
    rw [faultEntry_changes]
    exact ⟨rfl, rfl, rfl⟩

theorem transferResponse_delivered_prefix (s : State) : s.delivered <+: (transferResponse s).delivered := by
  cases hr : s.rsp with
  | none => rw [transferResponse_none hr]
  | some r => rw [transferResponse_some hr]; exact List.prefix_append _ _

/-- Settles O44: the five things a step can do. -/
theorem stepKeepsConfigurationAndHistory : Obligations.StepKeepsConfigurationAndHistory := by
  unfold Obligations.StepKeepsConfigurationAndHistory
  intro s t h
  rcases step_cases s with ⟨-, e⟩ | ⟨rest, -, e⟩ | ⟨rest, -, e⟩ | ⟨w, rest, r, -, -, e⟩ | ⟨w, rest, -, -, e⟩ <;>
    rw [e] at h
  · cases h; exact ⟨rfl, List.prefix_rfl⟩
  · cases h; exact ⟨rfl, List.prefix_rfl⟩
  · cases h; exact ⟨transferResponse_config _, transferResponse_delivered_prefix { s with host := rest }⟩
  · cases h; exact ⟨transferResponse_config s, transferResponse_delivered_prefix s⟩
  · obtain ⟨hconfig, -, hdelivered⟩ := execWord_ports h
    exact ⟨hconfig, hdelivered ▸ List.prefix_rfl⟩

theorem step_reset {s : State} {rest : List HostEvent} (h : s.host = .reset :: rest) :
    step s = .next (hostReset { s with host := rest }) := by
  rw [step, transfer, h]

/-- Settles O11: the step is the reset of the registers, and the reset values are evaluated. -/
theorem resetLeavesTheResetState : Obligations.ResetLeavesTheResetState := by
  unfold Obligations.ResetLeavesTheResetState
  exact ⟨fun _ _ hhost => step_reset hhost, by decide⟩

end Sys2Proof.Machine
end

section
/-! SUPPORT. Every operation keeps the invariants of spec/10_state.md R36. Inside `RUN` the sequencer leaves its first
entry with no fault recorded, so what the passes keep is a weaker property, `Running`. The obligation about reset is
settled first, since the reset step uses it; the one about every step stands at the end. -/

namespace Sys2Proof.Machine

/-! ### What the invariants do not see -/

/-- The invariants are about the registers and the depth only. -/
theorem inv_of_same_registers {s t : State} (h : s.Inv) (ha : t.toArch = s.toArch) (hc : t.config = s.config) :
    t.Inv := by
  obtain ⟨a, _, c, _, _⟩ := s
  obtain ⟨_, _, _, _, _⟩ := t
  obtain ⟨hstorage, hbuffer, hbefore, hlist, hfault, hdigest⟩ := h
  cases ha
  cases hc
  exact ⟨hstorage, hbuffer, hbefore, hlist, hfault, hdigest⟩

theorem answered_inv {s : State} (v : Word) (h : s.Inv) : (answered v s).Inv := inv_of_same_registers h rfl rfl

theorem rejected_inv {s : State} (code : BitVec 4) (h : s.Inv) : (rejected code s).Inv :=
  inv_of_same_registers h rfl rfl

/-! ### Reset and a fresh computation -/

/-- Settles O41: each clause, evaluated at the reset values. -/
theorem invariantsHoldAtReset : Obligations.InvariantsHoldAtReset where
  storage := reset_storageWf
  buffer := by decide
  beforeInit := by decide
  list := ⟨Nat.zero_le _, .inr rfl, fun _ => rfl⟩
  fault := by decide
  digest := by decide

/-- Reset establishes the invariants whatever the depth of the list memory. -/
theorem hostReset_inv (s : State) : (hostReset s).Inv where
  storage := hostReset_storageWf s
  buffer := invariantsHoldAtReset.buffer
  beforeInit := invariantsHoldAtReset.beforeInit
  list := ⟨Nat.zero_le _, .inr rfl, fun _ => rfl⟩
  fault := invariantsHoldAtReset.fault
  digest := invariantsHoldAtReset.digest

theorem construct_inv {n : Half} (h0 : n.toNat ≠ 0) (hn : n.toNat ≤ nMax) (s : State) : (construct n s).Inv := by
  have hsize : bufSize (construct n s) = n.toNat := by
    unfold nMax at hn
    simp only [bufSize, construct_nreg, BitVec.toNat_setWidth]
    omega
  have hnreg : (construct n s).nreg ≠ 0#9 := fun h => h0 (hsize ▸ congrArg BitVec.toNat h)
  exact
    { storage := construct_storageWf hn s
      buffer := ⟨by simpa using hnreg, hsize ▸ hn, hsize ▸ .refl _, fun _ => hsize ▸ Nat.pos_of_ne_zero h0⟩
      beforeInit := fun h => nomatch h
      list := ⟨Nat.zero_le _, .inr rfl, fun _ => rfl⟩
      fault := by simp [State.faultOk]
      digest := by simp [State.digestOk] }

/-! ### Writes of one register or one storage file -/

theorem clearDigest_inv {s : State} (h : s.Inv) : (clearDigest s).Inv where
  storage := clearDigest_storageWf h.storage
  buffer := h.buffer
  beforeInit hi := by
    obtain ⟨hcur, hskip, hlcnt, hrnd, hlidx, -⟩ := h.beforeInit hi
    exact ⟨hcur, hskip, hlcnt, hrnd, hlidx, rfl⟩
  list := h.list
  fault := h.fault
  digest := by simp [State.digestOk]

/-- A reversal keeps the buffer a permutation of `0..N-1` (R36 item 2). -/
theorem setBuf_inv {s : State} {b : List Byte} {c l : Nat} (h : s.Inv) (hd : s.dvalid = false)
    (hb : reverse (bufSize s) s.buf c l = some b) : State.Inv { s with buf := b } := by
  obtain ⟨hinitd, hsize, hperm, hcur⟩ := h.buffer
  exact
    { storage := setBuf_storageWf h.storage hb
      buffer := ⟨hinitd, hsize, (reverse_perm hb).trans hperm, hcur⟩
      beforeInit := h.beforeInit
      list := h.list
      fault := h.fault
      digest := by simpa [State.digestOk, hd] using h.digest }

theorem setPosition_inv {s : State} {c : BitVec 8} (k : BitVec 32) (h : s.Inv) (hi : s.initd = true)
    (hc : c.toNat < bufSize s) : State.Inv { s with cur := c, skip := k } := by
  obtain ⟨hinitd, hsize, hperm, -⟩ := h.buffer
  exact
    { storage := h.storage
      buffer := ⟨hinitd, hsize, hperm, fun _ => hc⟩
      beforeInit := by simp [State.beforeInitOk, hi]
      list := h.list
      fault := h.fault
      digest := h.digest }

theorem setRound_inv {s : State} (r : BitVec 16) (h : s.Inv) (hi : s.initd = true) :
    State.Inv { s with rnd := r } where
  storage := h.storage
  buffer := h.buffer
  beforeInit := by simp [State.beforeInitOk, hi]
  list := h.list
  fault := h.fault
  digest := h.digest

theorem rewind_inv {s : State} (h : s.Inv) : State.Inv { s with lidx := 0#17 } where
  storage := h.storage
  buffer := h.buffer
  beforeInit hi := by
    obtain ⟨hcur, hskip, hlcnt, hrnd, -, hdvalid⟩ := h.beforeInit hi
    exact ⟨hcur, hskip, hlcnt, hrnd, rfl, hdvalid⟩
  list := ⟨h.list.1, .inr rfl, fun _ => rfl⟩
  fault := h.fault
  digest := h.digest

/-- The store of `LCLR` (R100): with no fault recorded the sequencer stands at the first entry. -/
theorem clearList_inv {s : State} (h : s.Inv) (hr : s.ready) : State.Inv { s with ll := [], lcnt := 0#17 } where
  storage := clearList_storageWf h.storage
  buffer := h.buffer
  beforeInit := by simp [State.beforeInitOk, hr.2]
  list := ⟨Nat.zero_le _, .inr (h.list.2.2 hr.1), h.list.2.2⟩
  fault := h.fault
  digest := h.digest

/-- The store of `LPUSH` (R101). -/
theorem push_inv {s : State} (l : Half) (h : s.Inv) (hr : s.ready) (hroom : s.lcnt.toNat ≠ s.config.ldepth) :
    State.Inv { s with ll := s.ll ++ [l], lcnt := s.lcnt + 1#17 } := by
  obtain ⟨hdepth, -, hlidx⟩ := h.list
  have hlt : s.lcnt.toNat < s.config.ldepth := by omega
  have hcount : (s.lcnt + 1#17).toNat = s.lcnt.toNat + 1 := by
    have := ldepth_range s.config
    rw [BitVec.toNat_add, BitVec.toNat_ofNat]
    omega
  exact
    { storage := push_storageWf l h.storage hlt
      buffer := h.buffer
      beforeInit := by simp [State.beforeInitOk, hr.2]
      list := ⟨hcount.trans_le hlt, .inr (hlidx hr.1), hlidx⟩
      fault := h.fault
      digest := h.digest }

/-- The store of `REDUCE` (R121). -/
theorem withDigest_inv {s : State} (h : s.Inv) (hr : s.ready) (hblocks : bufSize s % blockSize = 0) :
    (withDigest s).Inv := by
  have hsize : bufSize s ≤ nMax := h.buffer.2.1
  have hcount : (withDigest s).dcnt.toNat = bufSize s / 16 := by
    unfold nMax at hsize
    simp only [withDigest, blockSize, BitVec.toNat_ofNat]
    omega
  exact
    { storage := reduce_storageWf h.storage hsize
      buffer := h.buffer
      beforeInit := by simp [State.beforeInitOk, withDigest, hr.2]
      list := h.list
      fault := h.fault
      digest := ⟨hr.2, hblocks, hcount, rfl⟩ }

/-! ### Fault entry -/

/-- The codes of the faults that are recorded are not 0, the code of no fault (R150). -/
theorem causeCode_ne_zero (c : Cause) : causeCode c ≠ 0#4 := by
  cases c <;> decide

/-- A first fault keeps the invariants, if the sequencer stands at its first entry or at an entry of the list (R24). -/
theorem trapped_inv {s : State} {c : Cause} (info : Word) (h : State.Inv { s with lidx := 0#17 })
    (hl : s.lidx.toNat < s.lcnt.toNat ∨ s.lidx = 0#17) (hc : c ≠ .faulted) : (trapped (causeCode c) info s).Inv where
  storage := h.storage
  buffer := h.buffer
  beforeInit hi := by
    obtain ⟨hcur, hskip, hlcnt, hrnd, -, hdvalid⟩ := h.beforeInit hi
    have hcount : s.lcnt.toNat = 0 := congrArg BitVec.toNat hlcnt
    exact ⟨hcur, hskip, hlcnt, hrnd, hl.resolve_left (by omega), hdvalid⟩
  list := ⟨h.list.1, hl, fun hf => nomatch hf⟩
  fault := by simp [State.faultOk, causeCode_ne_zero, causeCode_recordable hc]
  digest := h.digest

theorem faultEntry_inv {s : State} {c : Cause} (info : Word) (h : s.Inv) (hc : c ≠ .faulted) :
    (faultEntry c info s).Inv := by
  cases hf : s.fault with
  | true => exact faultEntry_of_faulted c info hf ▸ rejected_inv _ h
  | false => exact faultEntry_of_not_faulted c info hf ▸ trapped_inv info (rewind_inv h) h.list.2.1 hc

/-! ### The parts of `STEP` and `RUN` -/

/-- The per-length step (R105): the new cursor is a remainder modulo `N`. -/
theorem stepLen_inv {l : Half} {s t : State} (h : s.Inv) (hi : s.initd = true) (hd : s.dvalid = false)
    (ht : stepLen l s = .goOn t) : t.Inv := by
  obtain ⟨b, -, -, hb, rfl⟩ := stepLen_goOn_iff.1 ht
  refine setPosition_inv _ (setBuf_inv h hd hb) hi ?_
  have hpos : 0 < bufSize s := Nat.zero_lt_of_lt (h.buffer.2.2.2 hi)
  exact (Nat.mod_le _ _).trans_lt (Nat.mod_lt _ hpos)

/-- What the passes of `RUN` keep: no fault and no digest, and the invariants but for the sequencer's place in the
list. -/
structure Running (s : State) : Prop where
  inv : State.Inv { s with lidx := 0#17 }
  ready : s.ready
  noDigest : s.dvalid = false

theorem running_startOfRun {s : State} (h : s.Inv) (hr : s.ready) : Running (startOfRun s) where
  inv := (rewind_inv (setRound_inv 0#16 (clearDigest_inv h) hr.2) :)
  ready := hr
  noDigest := rfl

theorem running_passKeeps : PassKeeps Running where
  step l s t ht hs := by
    obtain ⟨b, hl, hskip, hb, rfl⟩ := stepLen_goOn_iff.1 ht
    have hrewound := stepLen_inv hs.inv hs.ready.2 hs.noDigest (stepLen_goOn_iff.2 ⟨b, hl, hskip, hb, rfl⟩)
    exact ⟨hrewound, hs.ready, hs.noDigest⟩
  move s k r hs := ⟨setRound_inv r hs.inv hs.ready.2, hs.ready, hs.noDigest⟩

theorem inv_of_running {s : State} (h : Running s) (hl : s.lidx = 0#17) : s.Inv :=
  inv_of_same_registers h.inv (by rw [← hl]) rfl

/-- A pass that faults leaves the sequencer at an entry that the list holds (R108). -/
theorem running_faultEntry_inv {s : State} {c : Cause} {l : Half} (info : Word) (h : Running s)
    (hl : readList s s.lidx.toNat = some l) (hc : c ≠ .faulted) : (faultEntry c info s).Inv := by
  obtain ⟨hentry, -⟩ := List.getElem?_eq_some_iff.1 hl
  have hcount : s.ll.length = s.lcnt.toNat := h.inv.storage.2.1
  exact faultEntry_of_not_faulted c info h.ready.1 ▸ trapped_inv info h.inv (.inl (hcount ▸ hentry)) hc

/-! ### Commands and steps -/

theorem exec_inv {i : Instr} {s t : State} (h : s.Inv) (hexec : exec i s = .next t) : t.Inv := by
  cases exec_effect hexec with
  | answers v _ => exact answered_inv v h
  | rejects code _ => exact rejected_inv code h
  | traps c info _ hc => exact trapped_inv info (rewind_inv h) h.list.2.1 hc
  | init h0 hn => exact answered_inv _ (construct_inv h0 hn s)
  | rev _ hb => exact answered_inv _ (setBuf_inv (clearDigest_inv h) rfl hb)
  | lclr hr => exact answered_inv _ (clearList_inv h hr)
  | lpush hr hroom => exact answered_inv _ (push_inv _ h hr hroom)
  | step hr hstep => exact answered_inv _ (stepLen_inv (clearDigest_inv h) hr.2 rfl hstep)
  | reduce hr hblocks => exact answered_inv _ (withDigest_inv h hr hblocks)
  | run hr hrun =>
    rcases run_cases running_passKeeps (running_startOfRun h hr) hrun with
      ⟨u, hu, hl, rfl⟩ | ⟨c, info, u, l, hc, hu, hl, rfl⟩
    · exact answered_inv _ (inv_of_running hu hl)
    · exact running_faultEntry_inv info hu hl hc

theorem execWord_inv {w : Word} {s t : State} (h : s.Inv) (hexec : execWord w s = .next t) : t.Inv := by
  rcases execWord_cases w s with ⟨i, -, e⟩ | ⟨_, -, e⟩ <;> rw [e] at hexec
  · exact exec_inv h hexec
  · cases hexec; exact faultEntry_inv w h (by decide)

theorem transferResponse_inv {s : State} (h : s.Inv) : (transferResponse s).Inv :=
  inv_of_same_registers h (transferResponse_toArch s) (transferResponse_config s)

/-- Settles O42: the five things a step can do. -/
theorem stepKeepsTheInvariants : Obligations.StepKeepsTheInvariants := by
  unfold Obligations.StepKeepsTheInvariants
  intro s t h hstep
  have hhost (rest : List HostEvent) : State.Inv { s with host := rest } := inv_of_same_registers h rfl rfl
  rcases step_cases s with ⟨-, e⟩ | ⟨rest, -, e⟩ | ⟨rest, -, e⟩ | ⟨w, rest, r, -, -, e⟩ | ⟨w, rest, -, -, e⟩ <;>
    rw [e] at hstep
  · cases hstep; exact h
  · cases hstep; exact hostReset_inv _
  · cases hstep; exact transferResponse_inv (hhost rest)
  · cases hstep; exact transferResponse_inv h
  · exact execWord_inv (hhost rest) hstep

end Sys2Proof.Machine
end

section
/-! SUPPORT. What the commands that only read leave as it is (spec/20_memory.md R55, spec/43_hex_encoder.md R133 to R135,
spec/44_checksum_system.md R140, R142, R143), and that a success repeated is the same success. -/

namespace Sys2Proof.Machine

/-- A command that only reads answers from unchanged registers, is refused, or enters its first fault. -/
theorem exec_onlyReads_cases {i : Instr} {s t : State} (hi : onlyReads i = true) (h : exec i s = .next t) :
    (∃ v, t = answered v s) ∨ (∃ code, t = rejected code s) ∨ ∃ code info, t = trapped code info s := by
  cases exec_effect h with
  | answers v => exact .inl ⟨v, rfl⟩
  | rejects code => exact .inr (.inl ⟨code, rfl⟩)
  | traps c info => exact .inr (.inr ⟨causeCode c, info, rfl⟩)
  | init | rev | lclr | lpush | step | run | reduce => cases hi

/-- A command that only reads and succeeds has changed no register. -/
theorem exec_onlyReads_success_toArch {i : Instr} {s t : State} {r : Response} (hi : onlyReads i = true)
    (h : exec i s = .next t) (hr : t.rsp = some r) (hok : r.err = false) : t.toArch = s.toArch := by
  rcases exec_onlyReads_cases hi h with ⟨v, rfl⟩ | ⟨code, rfl⟩ | ⟨code, info, rfl⟩
  · rfl
  · cases hr; cases hok
  · cases hr; cases hok

/-- A command that has left the registers as they were does the same again: it is blind to the ports, where alone its
own answer stands (R35). -/
theorem exec_repeats {i : Instr} {s t : State} (h : exec i s = .next t) (ha : t.toArch = s.toArch) :
    exec i t = .next t := by
  obtain ⟨hc, -⟩ := exec_ports h
  calc exec i t = exec i (withPorts t s) := by rw [withPorts_eq_self ha hc]
    _ = resultAtPorts t (exec i s) := exec_portBlind i t s
    _ = .next t := by rw [h]; rfl

/-- Settles O46: each of the three ends of a reading command is a frame, and only the first is a success. -/
theorem readCommandsFrame : Obligations.ReadCommandsFrame := by
  unfold Obligations.ReadCommandsFrame
  intro i s t hi h
  refine ⟨?_, fun r hr hok => exec_onlyReads_success_toArch hi h hr hok⟩
  rcases exec_onlyReads_cases hi h with ⟨v, rfl⟩ | ⟨code, rfl⟩ | ⟨code, info, rfl⟩ <;> rfl

/-- Settles O47: a successful read changes no register, so it does the same again. -/
theorem successfulReadsAreIdempotent : Obligations.SuccessfulReadsAreIdempotent := by
  unfold Obligations.SuccessfulReadsAreIdempotent
  intro i s t r hi h hr hok
  exact exec_repeats h (exec_onlyReads_success_toArch hi h hr hok)

end Sys2Proof.Machine
end

section
/-! SUPPORT. Decoding and encoding are inverse to each other (spec/30_encoding.md R70, R71), and a word is legal exactly
when its fields are well formed (R74). The settled obligations stand after the lemmas they need. -/

namespace Sys2Proof

/-! ### Commands and their fields -/

theorem decodeFields_encodeFields (i : Instr) : decodeFields (encodeFields i) = .ok i := by
  cases i <;> rfl

/-- Fields that decode are the fields of their command: the opcode selects one row of R71, and the row's operand form
leaves no unused field but zero. -/
theorem encodeFields_of_decodeFields {f : Fields} {i : Instr} (h : decodeFields f = .ok i) : encodeFields i = f := by
  obtain ⟨op, a, imm⟩ := f
  unfold decodeFields at h
  split at h <;> rename_i hop
  -- no listed opcode, then `REV`, which uses both fields
  case h_17 => cases h
  case h_4 => cases h; simp [encodeFields, BitVec.toNat_eq, hop]
  all_goals
    simp only [noOperand_ok, aOperand_ok, immOperand_ok] at h
    simp [encodeFields, BitVec.toNat_eq, hop, h]

/-- A word decodes to a command exactly when it is the word of that command. -/
theorem decode_eq_ok_iff {w : Word} {i : Instr} : decode w = .ok i ↔ encode i = w := by
  constructor
  · intro h
    rw [encode, encodeFields_of_decodeFields h, wordOf_fieldsOf]
  · rintro rfl
    rw [decode, encode, fieldsOf_wordOf, decodeFields_encodeFields]

@[simp] theorem decode_encode (i : Instr) : decode (encode i) = .ok i := decode_eq_ok_iff.2 rfl

theorem opField_of_decode {w : Word} {i : Instr} (h : decode w = .ok i) : opField w = (encodeFields i).op := by
  rw [encodeFields_of_decodeFields h, fieldsOf]

/-- Settles O1: the word of a command is a word that decodes to it. -/
theorem decodeInvertsEncode : Obligations.DecodeInvertsEncode := by
  unfold Obligations.DecodeInvertsEncode
  exact decode_encode

/-- Settles O2: a word that decodes to a command is the command's word. -/
theorem legalWordIsEncodingOfItsCommand : Obligations.LegalWordIsEncodingOfItsCommand := by
  unfold Obligations.LegalWordIsEncodingOfItsCommand
  exact fun w i => decode_eq_ok_iff.1

/-- Settles O5: each printed word is the word of the command beside it. -/
theorem assemblyExampleWordsDecode : Obligations.AssemblyExampleWordsDecode := by
  unfold Obligations.AssemblyExampleWordsDecode
  simp only [decode_eq_ok_iff]
  decide

/-! ### Legal words -/

/-- The decoder accepts exactly the fields that R71 calls well formed: for each listed opcode its operand form asks that
the unused fields be zero, and no other opcode is accepted. -/
theorem decodeFields_isOk_iff (f : Fields) : (∃ i, decodeFields f = .ok i) ↔ f.wellFormed = true := by
  unfold decodeFields
  split <;> rename_i hop <;>
    simp_all [Fields.wellFormed, fieldUse, noOperand_ok, aOperand_ok, immOperand_ok]

theorem decode_isOk_iff (w : Word) : (∃ i, decode w = .ok i) ↔ (fieldsOf w).wellFormed = true :=
  decodeFields_isOk_iff (fieldsOf w)

/-- Settles O4: the decoder fails where it does not accept. -/
theorem illegalWordsAreTheIllFormedOnes : Obligations.IllegalWordsAreTheIllFormedOnes := by
  unfold Obligations.IllegalWordsAreTheIllFormedOnes
  intro w
  rw [← Bool.not_eq_true, ← decode_isOk_iff]
  cases decode w <;> simp

end Sys2Proof
end

section
/-! SUPPORT. The match and mask rows of the opcode map (spec/30_encoding.md R73), read field by field: a row fixes the
opcode and asks that the fields its command does not use be zero. The settled obligation stands at the end. -/

namespace Sys2Proof

/-! ### Words under a mask -/

theorem wordOf_injective : Function.Injective wordOf :=
  Function.LeftInverse.injective fieldsOf_wordOf

theorem wordOf_and (f g : Fields) : wordOf f &&& wordOf g = wordOf ⟨f.op &&& g.op, f.a &&& g.a, f.imm &&& g.imm⟩ := by
  apply BitVec.eq_of_getLsbD_eq
  intro i hi
  simp only [wordOf, BitVec.getLsbD_and, BitVec.getLsbD_append]
  grind

/-- A mask of all bits asks that a field be zero; the mask 0 of a used field asks nothing. -/
theorem and_fieldMask_eq_zero_iff {n : Nat} {used : Bool} {x : BitVec n} :
    x &&& (if used then 0#n else BitVec.allOnes n) = 0#n ↔ used = true ∨ x = 0#n := by
  cases used <;> simp

/-- The mask of a command that uses the given fields: all bits of the opcode and of the unused fields (R73). -/
def maskOf (u : FieldUse) : Word :=
  wordOf ⟨BitVec.allOnes 8, if u.usesA then 0#8 else BitVec.allOnes 8, if u.usesImm then 0#16 else BitVec.allOnes 16⟩

/-- A masked word is an opcode alone exactly when the opcode is the word's and the masked fields are zero. -/
theorem and_maskOf_eq_iff {f : Fields} {u : FieldUse} {op : Byte} :
    wordOf f &&& maskOf u = wordOf ⟨op, 0#8, 0#16⟩ ↔
      f.op = op ∧ (u.usesA = true ∨ f.a = 0#8) ∧ (u.usesImm = true ∨ f.imm = 0#16) := by
  rw [maskOf, wordOf_and, wordOf_injective.eq_iff, Fields.mk.injEq, BitVec.and_allOnes, and_fieldMask_eq_zero_iff,
    and_fieldMask_eq_zero_iff]

theorem wellFormed_iff_of_listed {f : Fields} {u : FieldUse} (h : fieldUse f.op = some u) :
    f.wellFormed = true ↔ (u.usesA = true ∨ f.a = 0#8) ∧ (u.usesImm = true ∨ f.imm = 0#16) := by
  simp [Fields.wellFormed, h]

/-! ### The sixteen rows -/

/-- Each row has the mask of the fields that R71 lists for its opcode, and its match is the opcode alone. -/
theorem opcodeRows_shape :
    ∀ r ∈ opcodeRows,
      (fieldUse (opField r.pattern)).map maskOf = some r.mask ∧ r.pattern = wordOf ⟨opField r.pattern, 0#8, 0#16⟩ := by
  decide

theorem opcodeRows_opcode_injective :
    ∀ r₁ ∈ opcodeRows, ∀ r₂ ∈ opcodeRows, opField r₁.pattern = opField r₂.pattern → r₁ = r₂ := by
  decide

/-- Mnemonics and opcodes name the rows alike. -/
theorem mnemonicOf_eq_iff_opcode (i : Instr) :
    ∀ r ∈ opcodeRows, mnemonicOf i = r.mnemonic ↔ (encodeFields i).op = opField r.pattern := by
  cases i <;> simp only [mnemonicOf, encodeFields] <;> decide

theorem exists_row_of_command (i : Instr) : ∃ r ∈ opcodeRows, mnemonicOf i = r.mnemonic := by
  cases i <;> simp only [mnemonicOf] <;> decide

/-- A row hits exactly the well-formed words of its opcode. -/
theorem hits_iff {r : OpcodeRow} (hr : r ∈ opcodeRows) (w : Word) :
    r.hits w = true ↔ opField w = opField r.pattern ∧ (fieldsOf w).wellFormed = true := by
  obtain ⟨hrow, hpattern⟩ := opcodeRows_shape r hr
  obtain ⟨u, hlisted, hmask⟩ := Option.map_eq_some_iff.1 hrow
  have hfields : r.hits w = true ↔ wordOf (fieldsOf w) &&& maskOf u = wordOf ⟨opField r.pattern, 0#8, 0#16⟩ := by
    rw [OpcodeRow.hits, beq_iff_eq, wordOf_fieldsOf, hmask, ← hpattern]
  rw [hfields, and_maskOf_eq_iff]
  exact and_congr_right fun hop => (wellFormed_iff_of_listed (hop ▸ hlisted)).symm

theorem hits_iff_decode {r : OpcodeRow} (hr : r ∈ opcodeRows) (w : Word) :
    r.hits w = true ↔ ∃ i, decode w = .ok i ∧ mnemonicOf i = r.mnemonic := by
  rw [hits_iff hr, ← decode_isOk_iff]
  constructor
  · rintro ⟨hop, i, hi⟩
    exact ⟨i, hi, (mnemonicOf_eq_iff_opcode i r hr).2 (opField_of_decode hi ▸ hop)⟩
  · rintro ⟨i, hi, hname⟩
    exact ⟨opField_of_decode hi ▸ (mnemonicOf_eq_iff_opcode i r hr).1 hname, i, hi⟩

/-- Settles O3: the rows hit the words of their mnemonics, every command has a row, and no two rows share an opcode. -/
theorem decoderAgreesWithOpcodeMap : Obligations.DecoderAgreesWithOpcodeMap := by
  unfold Obligations.DecoderAgreesWithOpcodeMap
  refine fun w => ⟨fun r hr => hits_iff_decode hr w, ⟨?_, ?_⟩, fun r₁ h₁ r₂ h₂ hit₁ hit₂ => ?_⟩
  · rintro ⟨i, hi⟩
    obtain ⟨r, hr, hname⟩ := exists_row_of_command i
    exact ⟨r, hr, (hits_iff_decode hr w).2 ⟨i, hi, hname⟩⟩
  · rintro ⟨r, hr, hit⟩
    obtain ⟨i, hi, -⟩ := (hits_iff_decode hr w).1 hit
    exact ⟨i, hi⟩
  · obtain ⟨hop₁, -⟩ := (hits_iff h₁ w).1 hit₁
    obtain ⟨hop₂, -⟩ := (hits_iff h₂ w).1 hit₂
    exact opcodeRows_opcode_injective r₁ h₁ r₂ h₂ (hop₁ ▸ hop₂)

end Sys2Proof
end

section
/-! SUPPORT. The words the assembler emits (spec/30_encoding.md R80, R85), from the sum form of a command word (R70).
The settled obligation stands at the end. -/

namespace Sys2Proof.Machine

/-- A command word as the sum R70 prints, for operands that fit their fields. -/
theorem wordOf_eq_sum (op : Byte) {a imm : Nat} (ha : a < 256) (himm : imm < 65536) :
    wordOf ⟨op, BitVec.ofNat 8 a, BitVec.ofNat 16 imm⟩ = BitVec.ofNat 32 (op.toNat * 2 ^ 24 + a * 2 ^ 16 + imm) := by
  apply BitVec.eq_of_toNat_eq
  simp only [wordOf, BitVec.toNat_append, BitVec.toNat_ofNat, Nat.mod_eq_of_lt ha, Nat.mod_eq_of_lt himm]
  rw [← Nat.shiftLeft_add_eq_or_of_lt himm, ← Nat.shiftLeft_add_eq_or_of_lt ha, Nat.shiftLeft_eq, Nat.shiftLeft_eq]
  omega

/-- A line of one command gives the command's word where its operands fit (R80). -/
theorem assemble_single {line : AsmLine} {i : Instr} {w : Word} {fits : Prop} [Decidable fits]
    (hfits : line.wellFormed = decide fits) (hexpand : expandLine line = [i]) (hword : fits → encode i = w) :
    assemble line = if fits then some [w] else none := by
  by_cases h : fits <;> simp [assemble, hfits, hexpand, h, hword]

/-- A line whose operand is `a` alone. -/
theorem assemble_aLine {line : Nat → AsmLine} {i : Byte → Instr} (op : Byte)
    (hfits : ∀ v, (line v).wellFormed = fitsA v) (hexpand : ∀ v, expandLine (line v) = [i (BitVec.ofNat 8 v)])
    (hfields : ∀ a, encodeFields (i a) = ⟨op, a, 0#16⟩) (v : Nat) :
    assemble (line v) = if v < 256 then some [BitVec.ofNat 32 (op.toNat * 2 ^ 24 + v * 2 ^ 16)] else none := by
  refine assemble_single (hfits v) (hexpand v) fun hv => ?_
  rw [encode, hfields, wordOf_eq_sum op hv (by decide), Nat.add_zero]

/-- The word of a command whose operand is `imm` alone. -/
theorem encode_imm {i : Half → Instr} (op : Byte) (hfields : ∀ n, encodeFields (i n) = ⟨op, 0#8, n⟩) {v : Nat}
    (hv : v < 65536) : encode (i (BitVec.ofNat 16 v)) = BitVec.ofNat 32 (op.toNat * 2 ^ 24 + v) := by
  rw [encode, hfields, wordOf_eq_sum op (by decide) hv, Nat.zero_mul, Nat.add_zero]

/-- A line whose operand is `imm` alone. -/
theorem assemble_immLine {line : Nat → AsmLine} {i : Half → Instr} (op : Byte)
    (hfits : ∀ v, (line v).wellFormed = fitsImm v) (hexpand : ∀ v, expandLine (line v) = [i (BitVec.ofNat 16 v)])
    (hfields : ∀ n, encodeFields (i n) = ⟨op, 0#8, n⟩) (v : Nat) :
    assemble (line v) = if v < 65536 then some [BitVec.ofNat 32 (op.toNat * 2 ^ 24 + v)] else none :=
  assemble_single (hfits v) (hexpand v) (encode_imm op hfields)

theorem assemble_rev (c l : Nat) :
    assemble (.rev c l) =
      if c < 256 ∧ l < 65536 then some [BitVec.ofNat 32 (0x10 * 2 ^ 24 + c * 2 ^ 16 + l)] else none :=
  assemble_single (by simp [AsmLine.wellFormed, fitsA, fitsImm]) rfl fun ⟨hc, hl⟩ => wordOf_eq_sum 0x10#8 hc hl

theorem assemble_lstr {codes : List Nat} (h : ∀ v ∈ codes, v < 256) :
    assemble (.lstr codes) = some (codes.map fun v => BitVec.ofNat 32 (0x21 * 2 ^ 24 + v)) := by
  have hfits : (AsmLine.lstr codes).wellFormed = true := by simpa [AsmLine.wellFormed, fitsA] using h
  rw [assemble, if_pos hfits, expandLine, List.map_map]
  refine congrArg some (List.map_congr_left fun v hv => ?_)
  exact encode_imm 0x21#8 (i := .lpush) (fun _ => rfl) ((h v hv).trans (by decide))

theorem assemble_lstr_none {codes : List Nat} (h : ∃ v ∈ codes, 256 ≤ v) : assemble (.lstr codes) = none := by
  have hfits : (AsmLine.lstr codes).wellFormed = false := by simpa [AsmLine.wellFormed, fitsA] using h
  simp [assemble, hfits]

/-- The words of a line decode to its commands. -/
theorem decode_assemble {line : AsmLine} {ws : List Word} (h : assemble line = some ws) :
    ws.map decode = (expandLine line).map (Except.ok : Instr → Except DecodeError Instr) := by
  unfold assemble at h
  split at h
  · cases h
    rw [List.map_map]
    exact List.map_congr_left fun i _ => decode_encode i
  · cases h

/-- Settles O6: each form of a line with its opcode and operand field. -/
theorem assemblerEmitsTheWordsOfTheLine : Obligations.AssemblerEmitsTheWordsOfTheLine := by
  unfold Obligations.AssemblerEmitsTheWordsOfTheLine
  refine ⟨by decide, by decide, by decide, by decide, ?rdsr, ?rdbuf, ?rddig, ?hexb, ?rdhex, ?init, ?lpush, ?rdll, ?step,
    ?run, ?hexd, assemble_rev, by decide, fun _ => assemble_lstr, fun _ => assemble_lstr_none,
    fun _ _ => decode_assemble⟩
  case rdsr => exact assemble_aLine (i := .rdsr) 0x02#8 (fun _ => rfl) (fun _ => rfl) fun _ => rfl
  case rdbuf => exact assemble_aLine (i := .rdbuf) 0x11#8 (fun _ => rfl) (fun _ => rfl) fun _ => rfl
  case rddig => exact assemble_aLine (i := .rddig) 0x31#8 (fun _ => rfl) (fun _ => rfl) fun _ => rfl
  case hexb => exact assemble_aLine (i := .hexb) 0x40#8 (fun _ => rfl) (fun _ => rfl) fun _ => rfl
  case rdhex => exact assemble_aLine (i := .rdhex) 0x42#8 (fun _ => rfl) (fun _ => rfl) fun _ => rfl
  case init => exact assemble_immLine (i := .init) 0x01#8 (fun _ => rfl) (fun _ => rfl) fun _ => rfl
  case lpush => exact assemble_immLine (i := .lpush) 0x21#8 (fun _ => rfl) (fun _ => rfl) fun _ => rfl
  case rdll => exact assemble_immLine (i := .rdll) 0x22#8 (fun _ => rfl) (fun _ => rfl) fun _ => rfl
  case step => exact assemble_immLine (i := .step) 0x23#8 (fun _ => rfl) (fun _ => rfl) fun _ => rfl
  case run => exact assemble_immLine (i := .run) 0x24#8 (fun _ => rfl) (fun _ => rfl) fun _ => rfl
  case hexd => exact assemble_immLine (i := .hexd) 0x41#8 (fun _ => rfl) (fun _ => rfl) fun _ => rfl

end Sys2Proof.Machine
end

section
/-! SUPPORT. The two ports (spec/30_encoding.md R75 to R78): a word is taken when no response waits, a response is held
until it is transferred, and every command that ends has put one there. The settled obligations stand after the lemmas
they need. -/

namespace Sys2Proof.Machine

/-! ### Steps -/

theorem step_command_idle {s : State} {w : Word} {rest : List HostEvent} (hrsp : s.rsp = none)
    (hhost : s.host = .command w :: rest) : step s = execWord w { s with host := rest } := by
  simp only [step, transfer, hhost, hrsp]

theorem step_command_waiting {s : State} {r : Response} {w : Word} {rest : List HostEvent} (hrsp : s.rsp = some r)
    (hhost : s.host = .command w :: rest) : step s = .next (transferResponse s) := by
  simp only [step, transfer, hhost, hrsp]

theorem step_takeResponse {s : State} {rest : List HostEvent} (hhost : s.host = .takeResponse :: rest) :
    step s = .next (transferResponse { s with host := rest }) := by
  simp only [step, transfer, hhost]

theorem step_no_action {s : State} (hhost : s.host = []) : step s = .next s := by
  simp only [step, transfer, hhost]

theorem execWord_of_decode {w : Word} {i : Instr} (h : decode w = .ok i) (s : State) : execWord w s = exec i s := by
  rw [execWord, h]

/-- Settles O7: the offered word is executed, and a word that decodes is its command. -/
theorem stepRunsTheDecodedCommand : Obligations.StepRunsTheDecodedCommand := by
  unfold Obligations.StepRunsTheDecodedCommand
  intro s w rest hrsp hhost
  have hstep := step_command_idle hrsp hhost
  exact ⟨hstep, fun i hi => hstep.trans (execWord_of_decode hi _)⟩

/-- Settles O9: the steps of a core with a waiting response, by what the host does. -/
theorem responseIsHeldUntilTransferred : Obligations.ResponseIsHeldUntilTransferred := by
  unfold Obligations.ResponseIsHeldUntilTransferred
  intro s r hrsp
  refine ⟨by simp [cmdReady, hrsp], by simp [rspValid, hrsp], step_no_action, fun w rest hhost => ?_,
    fun rest hhost => ?_⟩
  · rw [step_command_waiting hrsp hhost, transferResponse_some hrsp]
  · have hrsp' : State.rsp { s with host := rest } = some r := hrsp
    rw [step_takeResponse hhost, transferResponse_some hrsp']

/-! ### Responses -/

/-- The response a command `i` can leave: the error response of a cause, or a success, which is 0 where `i` returns no
value (R76). -/
inductive Responds (i : Instr) (t : State) : Prop where
  | failure (c : Cause) : t.rsp = some (errorResponse c) → Responds i t
  | success (v : Word) : t.rsp = some ⟨false, v⟩ → (returnsNoValue i = true → v = 0#32) → Responds i t

theorem Responds.of_raise {i : Instr} {c : Cause} {info : Word} {s t : State} (h : raise c info s = .next t) :
    Responds i t := by
  cases h
  exact .failure c (faultEntry_rsp c info s)

theorem execInit_responds {n : Half} {s t : State} (h : execInit n s = .next t) : Responds (.init n) t := by
  unfold execInit at h
  split at h
  · exact .of_raise h
  · cases h; exact .success _ rfl fun _ => rfl

theorem execRdsr_responds {r : Byte} {s t : State} (h : execRdsr r s = .next t) : Responds (.rdsr r) t := by
  unfold execRdsr at h
  split at h
  · cases h; exact .success _ rfl nofun
  · exact .of_raise h

/-- The commands accepted while a fault is recorded answer in every state (R140 to R142). -/
theorem exec_system_responds {i : Instr} {s t : State} (hi : acceptedWhileFaulted i = true)
    (h : exec i s = .next t) : Responds i t := by
  cases i with
  | nop => cases h; exact .success _ rfl fun _ => rfl
  | init n => exact execInit_responds h
  | rdsr r => exact execRdsr_responds h
  | _ => cases hi

/-- A `RUN` that answers has done all its rounds or entered a fault (R108). -/
theorem run_responds {i : Instr} {k : Nat} {s t : State} (h : finish (runRounds k (startOfRun s)) = .next t) :
    Responds i t := by
  have hkeeps : PassKeeps fun _ => True := ⟨fun _ _ _ _ _ => trivial, fun _ _ _ _ => trivial⟩
  rcases run_cases hkeeps trivial h with ⟨u, -, -, rfl⟩ | ⟨c, info, u, -, -, -, -, rfl⟩
  · exact .success _ rfl fun _ => rfl
  · exact .failure c (faultEntry_rsp c info u)

/-- Of the commands that only read, each that is refused while faulted returns a value; `NOP` is not refused. -/
theorem returnsNoValue_eq_false_of_onlyReads {i : Instr} (hi : acceptedWhileFaulted i = false)
    (h : onlyReads i = true) : returnsNoValue i = false := by
  cases i with
  | nop | init | rdsr => cases hi
  | rev | lclr | lpush | step | run | reduce => cases h
  | rdbuf | rdll | rddig | hexb | hexd | rdhex | cksum => rfl

/-- The other commands answer when no fault is recorded, each by its effect. -/
theorem exec_unfaulted_responds {i : Instr} {s t : State} (hi : acceptedWhileFaulted i = false) (hf : s.fault = false)
    (h : exec i s = .next t) : Responds i t := by
  cases exec_effect h with
  | answers v hreads => exact .success v rfl (by simp [returnsNoValue_eq_false_of_onlyReads hi hreads])
  | rejects _ hfaulted => rw [hf] at hfaulted; cases hfaulted
  | traps c _ _ _ => exact .failure c rfl
  | run _ hrun => exact run_responds hrun
  | init | rev | lclr | lpush | step | reduce => exact .success _ rfl fun _ => rfl

theorem exec_responds {i : Instr} {s t : State} (h : exec i s = .next t) : Responds i t := by
  cases hi : acceptedWhileFaulted i with
  | true => exact exec_system_responds hi h
  | false =>
    cases hf : s.fault with
    | false => exact exec_unfaulted_responds hi hf h
    | true =>
      obtain ⟨body, hbody⟩ := exec_behind_unlessFaulted hi
      rw [hbody, unlessFaulted_faulted hf] at h
      cases h
      exact .failure .faulted rfl

/-- The data of an error response is the code, which its 32 bits hold. -/
theorem errorResponse_data_toNat (c : Cause) : (errorResponse c).data.toNat = (causeCode c).toNat := by
  cases c <;> rfl

/-- Settles O12: every response is a failure with its cause's code or a success. -/
theorem everyCommandAnswersOnce : Obligations.EveryCommandAnswersOnce := by
  unfold Obligations.EveryCommandAnswersOnce
  intro i s t h
  cases exec_responds h with
  | failure c hrsp => exact ⟨_, hrsp, fun _ => errorResponse_data_toNat c ▸ causeCode_range c, nofun⟩
  | success v hrsp hzero => exact ⟨_, hrsp, nofun, fun _ => hzero⟩

end Sys2Proof.Machine
end

section
/-! SUPPORT. What every statement on a command says first: its word (spec/30_encoding.md R70, R71) and its refusal while
faulted or without a buffer (R75). -/

namespace Sys2Proof.Machine

/-- The decoder reads a word written as its three fields from the fields (R70). -/
theorem decode_fields (op a : Byte) (imm : Half) : decode (op ++ a ++ imm) = decodeFields ⟨op, a, imm⟩ :=
  congrArg decodeFields (fieldsOf_wordOf ⟨op, a, imm⟩)

/-- The encoding of a command that uses both operand fields. -/
theorem encodedAs_bothOperands {op : Byte} {command : Byte → Half → Instr}
    (h : ∀ a imm, decodeFields ⟨op, a, imm⟩ = .ok (command a imm)) : EncodedAs op true true command :=
  fun a imm => (decode_fields op a imm).trans (h a imm)

/-- The encoding of a command that uses `a` only. -/
theorem encodedAs_aOperand {op : Byte} {command : Byte → Instr}
    (h : ∀ a imm, decodeFields ⟨op, a, imm⟩ = aOperand ⟨op, a, imm⟩ command) :
    EncodedAs op true false fun a _ => command a := by
  intro a imm
  rw [decode_fields, h, aOperand]
  simp

/-- A command that is its own rule behind steps 2 and 3 of the decode order is refused there (R75). -/
theorem needsBuffer_of_needsNoBuffer_eq_false {i : Instr} (h : needsNoBuffer i = false) : NeedsBuffer i := by
  obtain ⟨body, hbody⟩ := exec_behind_whenReady h
  refine ⟨fun s hf => ?_, fun s hf hi => ?_⟩
  · rw [hbody, whenReady_faulted hf]
  · rw [hbody, whenReady_noBuffer hf hi]

end Sys2Proof.Machine
end

section
/-! SUPPORT. The reversal inside and outside its range, its laws, and its in-place form by swaps
(spec/40_buffer_reversal.md R90 to R92). Positions are counted around the ring from the start of the range, where
mirroring is `k ↦ l - 1 - k`. The settled obligations stand after the lemmas they need. -/

namespace Sys2Proof.Machine

/-! ### Mirror positions by their offset -/

/-- Offsets below the size name distinct positions (R51). -/
theorem ringIndex_ne {n c j k : Nat} (hc : c < n) (hj : j < n) (hk : k < n) (h : j ≠ k) :
    ringIndex n c j ≠ ringIndex n c k := by
  intro he
  rw [← ringOffset_ringIndex hc hj, he, ringOffset_ringIndex hc hk] at h
  exact h rfl

theorem mirror_ringIndex {n c l k : Nat} (hc : c < n) (hk : k < n) :
    mirror n c l (ringIndex n c k) = ringIndex n c (if k < l then l - 1 - k else k) := by
  rw [mirror, ringOffset_ringIndex hc hk]
  split <;> rfl

/-- A position outside the range is its own mirror position. -/
theorem mirror_eq_self_of_outside {n c l p : Nat} (hc : c < n) (hp : p < n)
    (hout : ∀ k, k < l → p ≠ ringIndex n c k) : mirror n c l p = p :=
  if_neg fun h => hout _ h (ringIndex_ringOffset hc hp).symm

/-- A range of at most one entry has no two positions to exchange. -/
theorem mirror_eq_self_of_le_one {n c l p : Nat} (hc : c < n) (hl : l ≤ 1) (hp : p < n) : mirror n c l p = p := by
  unfold mirror
  split
  · rw [show l - 1 - ringOffset n c p = ringOffset n c p by omega, ringIndex_ringOffset hc hp]
  · rfl

/-! ### The entries after a reversal -/

theorem reverse_get_inside {n c l k : Nat} {old new : List Byte} (h : reverse n old c l = some new) (hk : k < l) :
    new[ringIndex n c k]? = old[ringIndex n c (l - 1 - k)]? := by
  obtain ⟨hc, hl, -⟩ := reverse_domain h
  rw [reverse_get h (ringIndex_lt hc k), mirror_ringIndex hc (by omega), if_pos hk]

theorem reverse_get_outside {n c l p : Nat} {old new : List Byte} (h : reverse n old c l = some new)
    (hout : ∀ k, k < l → p ≠ ringIndex n c k) : new[p]? = old[p]? := by
  obtain ⟨hc, -, hold⟩ := reverse_domain h
  by_cases hp : p < n
  · rw [reverse_get h hp, mirror_eq_self_of_outside hc hp hout]
  · have hlen := reverse_length h
    rw [List.getElem?_eq_none (by omega), List.getElem?_eq_none (by omega)]

/-- The model's `Reverse` is the reversal read position by position (R90). -/
theorem isReversal_of_reverse {n c l : Nat} {old new : List Byte} (h : reverse n old c l = some new) :
    IsReversal n c l old new := by
  obtain ⟨-, -, hold⟩ := reverse_domain h
  exact ⟨(reverse_length h).trans hold, fun _ => reverse_get_inside h, fun _ _ => reverse_get_outside h⟩

/-- The entries at the mirror positions determine the reversed buffer. -/
theorem reverse_eq_some_of_get {n c l : Nat} {old new : List Byte} (hc : c < n) (hl : l ≤ n) (hold : old.length = n)
    (hnew : new.length = n) (hget : ∀ p, p < n → new[p]? = old[mirror n c l p]?) :
    reverse n old c l = some new := by
  obtain ⟨b, hb⟩ := Option.isSome_iff_exists.1 ((reverse_isSome_iff n old c l).2 ⟨hc, hl, hold⟩)
  have hblen : b.length = n := (reverse_length hb).trans hold
  have heq : b = new := by
    refine List.ext_getElem?' fun p hp => ?_
    rw [hblen, hnew, max_self] at hp
    rw [reverse_get hb hp, hget p hp]
  rw [hb, heq]

/-! ### The laws of R92 -/

theorem reverse_of_le_one {n c l : Nat} {old new : List Byte} (h : reverse n old c l = some new) (hl1 : l ≤ 1) :
    new = old := by
  obtain ⟨hc, hl, hold⟩ := reverse_domain h
  have hself : reverse n old c l = some old :=
    reverse_eq_some_of_get hc hl hold hold fun p hp => by rw [mirror_eq_self_of_le_one hc hl1 hp]
  exact Option.some_inj.1 (h.symm.trans hself)

theorem reverse_reverse {n c l : Nat} {old new : List Byte} (h : reverse n old c l = some new) :
    reverse n new c l = some old := by
  obtain ⟨hc, hl, hold⟩ := reverse_domain h
  refine reverse_eq_some_of_get hc hl ((reverse_length h).trans hold) hold fun p hp => ?_
  rw [reverse_get h (mirror_lt hc hp), mirror_mirror hc hl hp]

/-- A range that does not reach past the end is reversed in place. -/
theorem reverse_without_wrap {n c l : Nat} {old new : List Byte} (h : reverse n old c l = some new)
    (hend : c + l ≤ n) :
    (∀ k, k < l → new[c + k]? = old[c + (l - 1 - k)]?) ∧
    (∀ p, p < c ∨ (c + l ≤ p ∧ p < n) → new[p]? = old[p]?) := by
  have hplain (k : Nat) (hk : k < l) : ringIndex n c k = c + k := Nat.mod_eq_of_lt (by omega)
  refine ⟨fun k hk => ?_, fun p hp => reverse_get_outside h fun k hk => ?_⟩
  · rw [← hplain k hk, ← hplain (l - 1 - k) (by omega), reverse_get_inside h hk]
  · rw [hplain k hk]
    omega

/-- The positions of a range that reaches past the end: `[c, n)`, then from 0 on. -/
theorem ringIndex_wrap {n c k : Nat} (hc : c < n) (hk : k < n) :
    ringIndex n c k = if k < n - c then c + k else k - (n - c) := by
  rw [ringIndex, mod_of_lt_two_mul (by omega)]
  split <;> split <;> omega

/-- A range that reaches past the end leaves the entries between its own end and its start. -/
theorem reverse_with_wrap_outside {n c l p : Nat} {old new : List Byte} (h : reverse n old c l = some new)
    (hlow : c + l - n ≤ p) (hhigh : p < c) : new[p]? = old[p]? := by
  obtain ⟨hc, hl, -⟩ := reverse_domain h
  refine reverse_get_outside h fun k hk => ?_
  rw [ringIndex_wrap hc (by omega)]
  split <;> omega

/-- Settles O36: the six laws, one lemma each. -/
theorem reversalLaws : Obligations.ReversalLaws := by
  unfold Obligations.ReversalLaws
  intro n c l old new h
  obtain ⟨hc, hl, -⟩ := reverse_domain h
  refine ⟨reverse_perm h, fun h0 => reverse_of_le_one h (by omega), fun h1 => reverse_of_le_one h h1.le,
    reverse_reverse h, ?_, reverse_without_wrap h, fun _ => ⟨fun k hk => ringIndex_wrap hc (by omega),
      fun p => reverse_with_wrap_outside h⟩⟩
  rintro rfl k hk
  exact reverse_get_inside h hk

/-! ### The form by swaps (R91) -/

/-- The swap of the in-place form at offset `k` (R91). -/
def swapAt (n c l : Nat) (buf : List Byte) (k : Nat) : List Byte :=
  swapEntries buf (ringIndex n c k) (ringIndex n c (l - 1 - k))

theorem reverseBySwaps_eq (n c l : Nat) (buf : List Byte) :
    reverseBySwaps n c l buf = (List.range (l / 2)).foldl (swapAt n c l) buf := rfl

/-- The offset whose old entry stands at offset `k` after the first `m` swaps. -/
def offsetAfterSwaps (l m k : Nat) : Nat :=
  if k < l ∧ (k < m ∨ l - 1 - k < m) then l - 1 - k else k

theorem swapEntries_get {buf : List Byte} {i j : Nat} (hi : i < buf.length) (hj : j < buf.length) (p : Nat) :
    (swapEntries buf i j)[p]? = if p = j then buf[i]? else if p = i then buf[j]? else buf[p]? := by
  simp only [swapEntries, List.getElem?_eq_getElem hi, List.getElem?_eq_getElem hj, List.getElem?_set,
    List.length_set, hi, hj, if_true, eq_comm (a := p)]

@[simp] theorem swapEntries_length (buf : List Byte) (i j : Nat) : (swapEntries buf i j).length = buf.length := by
  unfold swapEntries; split <;> simp

theorem swaps_length (n c l : Nat) (ks : List Nat) (buf : List Byte) :
    (ks.foldl (swapAt n c l) buf).length = buf.length := by
  induction ks generalizing buf with
  | nil => rfl
  | cons k ks ih => simp [ih, swapAt]

theorem reverseBySwaps_length (n c l : Nat) (buf : List Byte) : (reverseBySwaps n c l buf).length = buf.length :=
  swaps_length n c l _ buf

/-- One swap, read by offsets: the entries at the offsets `m` and `l - 1 - m` change places. -/
theorem swapAt_get {n c l m k : Nat} {buf : List Byte} (hc : c < n) (hbuf : buf.length = n) (hl : l ≤ n) (hm : m < l)
    (hk : k < n) :
    (swapAt n c l buf m)[ringIndex n c k]? =
      if k = l - 1 - m then buf[ringIndex n c m]?
      else if k = m then buf[ringIndex n c (l - 1 - m)]? else buf[ringIndex n c k]? := by
  have hpos {j : Nat} (hj : j < n) : ringIndex n c k = ringIndex n c j ↔ k = j :=
    ⟨fun h => by_contra fun hne => ringIndex_ne hc hk hj hne h, congrArg _⟩
  rw [swapAt, swapEntries_get (hbuf ▸ ringIndex_lt hc m) (hbuf ▸ ringIndex_lt hc _)]
  simp only [hpos (j := m) (by omega), hpos (j := l - 1 - m) (by omega)]

/-- The entries after the first `m` swaps, by induction on `m`: the swap of offset `m` finds both its entries still at
their old places. -/
theorem swaps_get {n c l k : Nat} {old : List Byte} (hc : c < n) (hl : l ≤ n) (hold : old.length = n) (hk : k < n)
    (m : Nat) (hm : m ≤ l / 2) :
    ((List.range m).foldl (swapAt n c l) old)[ringIndex n c k]? =
      old[ringIndex n c (offsetAfterSwaps l m k)]? := by
  induction m generalizing k with
  | zero => simp [offsetAfterSwaps]
  | succ m ih =>
    have hlen := (swaps_length n c l (List.range m) old).trans hold
    rw [List.range_succ, List.foldl_append, List.foldl_cons, List.foldl_nil,
      swapAt_get hc hlen hl (by omega) hk, ih (by omega) (by omega), ih (by omega) (by omega), ih hk (by omega)]
    simp only [← apply_ite (fun j => old[ringIndex n c j]?)]
    congr 2
    unfold offsetAfterSwaps
    split_ifs <;> omega

/-- After all the swaps every position holds the old entry of its mirror position. -/
theorem reverseBySwaps_get {n c l p : Nat} {old : List Byte} (hc : c < n) (hl : l ≤ n) (hold : old.length = n)
    (hp : p < n) : (reverseBySwaps n c l old)[p]? = old[mirror n c l p]? := by
  have hk : ringOffset n c p < n := Nat.mod_lt _ (by omega)
  have hmirror : offsetAfterSwaps l (l / 2) (ringOffset n c p) =
      if ringOffset n c p < l then l - 1 - ringOffset n c p else ringOffset n c p := by
    unfold offsetAfterSwaps
    split_ifs <;> omega
  rw [← ringIndex_ringOffset hc hp, mirror_ringIndex hc hk, ← hmirror, reverseBySwaps_eq,
    swaps_get hc hl hold hk _ le_rfl]

/-- Settles O37: both forms bring to each position the entry of its mirror position, and the swaps' offsets are
distinct. -/
theorem reversalBySwapsIsTheReversal : Obligations.ReversalBySwapsIsTheReversal := by
  unfold Obligations.ReversalBySwapsIsTheReversal
  intro n c l old hc hl hold
  have hne {j k : Nat} (hj : j < l) (hk : k < l) (h : j ≠ k) : (c + j) % n ≠ (c + k) % n :=
    ringIndex_ne hc (by omega) (by omega) h
  refine ⟨reverse_eq_some_of_get hc hl hold ((reverseBySwaps_length ..).trans hold)
      fun p => reverseBySwaps_get hc hl hold,
    fun k hk => hne (by omega) (by omega) (by omega), fun k m hkm hm => ⟨?_, ?_, ?_, ?_⟩⟩
  all_goals exact hne (by omega) (by omega) (by omega)

end Sys2Proof.Machine
end

section
/-! SUPPORT. The commands `REV` and `RDBUF` (spec/40_buffer_reversal.md R93, R94), each clause for a core that is ready,
and the frame of `REV`. The settled obligations stand after the lemmas they need. -/

namespace Sys2Proof.Machine

theorem exec_rev_badCur {c : Byte} {l : Half} {s : State} (hr : s.ready) (hc : bufSize s ≤ c.toNat) :
    exec (.rev c l) s = .next (trapped 6#4 (c.setWidth 32) s) := by
  rw [exec_rev_ready c l hr, if_pos hc, raise_of_not_faulted _ _ hr.1]
  rfl

theorem exec_rev_oversize {c : Byte} {l : Half} {s : State} (hr : s.ready) (hc : c.toNat < bufSize s)
    (hl : bufSize s < l.toNat) : exec (.rev c l) s = .next (trapped 4#4 (l.setWidth 32) s) := by
  rw [exec_rev_ready c l hr, if_neg (Nat.not_le.2 hc), if_pos hl, raise_of_not_faulted _ _ hr.1]
  rfl

theorem exec_rev_of_reverse {c : Byte} {l : Half} {s : State} {b : List Byte} (hr : s.ready)
    (hb : reverse (bufSize s) s.buf c.toNat l.toNat = some b) :
    exec (.rev c l) s = .next (answered 0#32 { clearDigest s with buf := b }) := by
  obtain ⟨hc, hl, -⟩ := reverse_domain hb
  rw [exec_rev_ready c l hr, if_neg (Nat.not_le.2 hc), if_neg (Nat.not_lt.2 hl), hb]
  rfl

/-- Settles O20: the operands are checked in order, and behind the checks `Reverse` has a value. -/
theorem revReversesTheRange : Obligations.RevReversesTheRange := by
  unfold Obligations.RevReversesTheRange
  refine ⟨encodedAs_bothOperands fun _ _ => rfl, fun _ _ => needsBuffer_of_needsNoBuffer_eq_false rfl,
    fun c l s hr => ⟨fun hinv hc hl => ?_, exec_rev_badCur hr, exec_rev_oversize hr⟩⟩
  obtain ⟨hbuf, -, -⟩ := hinv.storage
  obtain ⟨b, hb⟩ := Option.isSome_iff_exists.1 ((reverse_isSome_iff ..).2 ⟨hc, hl, hbuf⟩)
  exact ⟨b, [], isReversal_of_reverse hb, exec_rev_of_reverse hr hb⟩

/-- Settles O48: a `REV` that answers is refused, enters a fault, or writes the reversed buffer and drops the digest. -/
theorem revFrame : Obligations.RevFrame := by
  unfold Obligations.RevFrame
  intro c l s t h
  cases exec_effect h with
  | answers _ hreads => cases hreads
  | rejects _ _ => exact ⟨rfl, fun _ _ => rfl⟩
  | traps _ _ _ _ => exact ⟨rfl, fun _ _ => rfl⟩
  | rev _ hb => exact ⟨rfl, fun _ => reverse_get_outside hb⟩

theorem exec_rdbuf_index {i : Byte} {s : State} (hr : s.ready) (hi : bufSize s ≤ i.toNat) :
    exec (.rdbuf i) s = .next (trapped 7#4 (i.setWidth 32) s) := by
  rw [exec_rdbuf_ready i hr, if_pos hi, raise_of_not_faulted _ _ hr.1]
  rfl

theorem exec_rdbuf_of_entry {i : Byte} {s : State} {v : Byte} (hr : s.ready) (hi : i.toNat < bufSize s)
    (hv : s.buf[i.toNat]? = some v) : exec (.rdbuf i) s = .next (answered (v.setWidth 32) s) := by
  rw [exec_rdbuf_ready i hr, if_neg (Nat.not_le.2 hi), readBuf, hv]
  rfl

/-- Settles O21: the buffer holds exactly the entries below `N`. -/
theorem rdbufReadsTheEntry : Obligations.RdbufReadsTheEntry := by
  unfold Obligations.RdbufReadsTheEntry
  refine ⟨encodedAs_aOperand fun _ _ => rfl, fun _ => needsBuffer_of_needsNoBuffer_eq_false rfl,
    fun i s hr => ⟨fun hinv hi => ?_, exec_rdbuf_index hr⟩⟩
  obtain ⟨hbuf, -, -⟩ := hinv.storage
  have hv : s.buf[i.toNat]? = some _ := List.getElem?_eq_getElem (hbuf ▸ hi)
  exact ⟨_, hv, exec_rdbuf_of_entry hr hi hv⟩

end Sys2Proof.Machine
end

section
/-! SUPPORT. The list commands `LCLR`, `LPUSH`, `RDLL` (spec/41_scrambler.md R100 to R102), each clause for a core that is
ready, and the frame of those that write. The settled obligations stand after the lemmas they need. -/

namespace Sys2Proof.Machine

/-! ### Encodings -/

/-- The encoding of a command that uses `imm` only. -/
theorem encodedAs_immOperand {op : Byte} {command : Half → Instr}
    (h : ∀ a imm, decodeFields ⟨op, a, imm⟩ = immOperand ⟨op, a, imm⟩ command) :
    EncodedAs op false true fun _ imm => command imm := by
  intro a imm
  rw [decode_fields, h, immOperand]
  simp

/-- The encoding of a command that uses neither operand field. -/
theorem encodedAs_noOperand {op : Byte} {i : Instr}
    (h : ∀ a imm, decodeFields ⟨op, a, imm⟩ = noOperand ⟨op, a, imm⟩ i) :
    EncodedAs op false false fun _ _ => i := by
  intro a imm
  rw [decode_fields, h, noOperand]
  simp

/-! ### The commands -/

/-- Settles O22: a ready core stores the empty list. -/
theorem lclrEmptiesTheList : Obligations.LclrEmptiesTheList := by
  unfold Obligations.LclrEmptiesTheList
  exact ⟨encodedAs_noOperand fun _ _ => rfl, needsBuffer_of_needsNoBuffer_eq_false rfl,
    fun s hr => ⟨[], exec_lclr_ready hr⟩⟩

theorem exec_lpush_full {l : Half} {s : State} (hr : s.ready) (hfull : s.lcnt.toNat = s.config.ldepth) :
    exec (.lpush l) s = .next (trapped 8#4 (l.setWidth 32) s) := by
  rw [exec_lpush_ready l hr, if_pos hfull, raise_of_not_faulted _ _ hr.1]
  rfl

theorem exec_lpush_room {l : Half} {s : State} (hr : s.ready) (hroom : s.lcnt.toNat ≠ s.config.ldepth) :
    exec (.lpush l) s = .next (answered 0#32 { s with ll := s.ll ++ [l], lcnt := s.lcnt + 1#17 }) := by
  rw [exec_lpush_ready l hr, if_neg hroom]
  rfl

/-- Settles O23: the list holds exactly its counted entries, so the new one stands at index `LCNT`, before and after
which nothing changes. -/
theorem lpushAppendsTheLength : Obligations.LpushAppendsTheLength := by
  unfold Obligations.LpushAppendsTheLength
  refine ⟨encodedAs_immOperand fun _ _ => rfl, fun _ => needsBuffer_of_needsNoBuffer_eq_false rfl,
    fun l s hr => ⟨fun hinv hroom => ?_, exec_lpush_full hr⟩⟩
  obtain ⟨-, hcount, -⟩ := hinv.storage
  obtain ⟨-, hcount', -⟩ := push_storageWf l hinv.storage hroom
  have hlength : (s.ll ++ [l]).length = s.lcnt.toNat + 1 := by rw [List.length_append, hcount, List.length_singleton]
  refine ⟨s.ll ++ [l], s.lcnt + 1#17, hlength, ?_, fun j hj => ?_, hcount'.symm.trans hlength,
    exec_lpush_room hr hroom.ne⟩
  · rw [← hcount, List.getElem?_concat_length]
  · exact List.getElem?_append_left (hcount ▸ hj)

theorem exec_rdll_index {j : Half} {s : State} (hr : s.ready) (hj : s.lcnt.toNat ≤ j.toNat) :
    exec (.rdll j) s = .next (trapped 7#4 (j.setWidth 32) s) := by
  rw [exec_rdll_ready j hr, if_pos hj, raise_of_not_faulted _ _ hr.1]
  rfl

theorem exec_rdll_of_entry {j : Half} {s : State} {v : Half} (hr : s.ready) (hj : j.toNat < s.lcnt.toNat)
    (hv : s.ll[j.toNat]? = some v) : exec (.rdll j) s = .next (answered (v.setWidth 32) s) := by
  rw [exec_rdll_ready j hr, if_neg (Nat.not_le.2 hj), readList, hv]
  rfl

/-- Settles O24: the list holds exactly the entries below `LCNT`. -/
theorem rdllReadsTheEntry : Obligations.RdllReadsTheEntry := by
  unfold Obligations.RdllReadsTheEntry
  refine ⟨encodedAs_immOperand fun _ _ => rfl, fun _ => needsBuffer_of_needsNoBuffer_eq_false rfl,
    fun j s hr => ⟨fun hinv hj => ?_, exec_rdll_index hr⟩⟩
  obtain ⟨-, hcount, -⟩ := hinv.storage
  have hv : s.ll[j.toNat]? = some _ := List.getElem?_eq_getElem (hcount ▸ hj)
  exact ⟨_, hv, exec_rdll_of_entry hr hj hv⟩

/-- Settles O51: the command that answers is refused, enters a fault, or writes the list, `LPUSH` behind its old
entries. -/
theorem listCommandsFrame : Obligations.ListCommandsFrame := by
  unfold Obligations.ListCommandsFrame
  intro i s t hi h
  cases exec_effect h with
  | rejects | traps => exact ⟨rfl, fun _ _ _ _ => rfl⟩
  | lclr => exact ⟨rfl, nofun⟩
  | lpush => exact ⟨rfl, fun _ _ _ hj => List.getElem?_append_left hj⟩
  | answers _ hreads => rcases hi with rfl | ⟨l, rfl⟩ <;> cases hreads
  | init | rev | step | run | reduce => rcases hi with hi | ⟨_, hi⟩ <;> cases hi

end Sys2Proof.Machine
end

section
/-! SUPPORT. What `STEP` and `RUN` leave as it is (spec/41_scrambler.md R105, R106, R108). -/

namespace Sys2Proof.Machine

/-- Settles O49: a `STEP` that answers is refused, enters a fault, or makes the whole per-length step, whose reversal
stays in its range. -/
theorem stepCommandFrame : Obligations.StepCommandFrame := by
  unfold Obligations.StepCommandFrame
  intro l s t h
  cases exec_effect h with
  | answers _ hreads => cases hreads
  | rejects | traps => exact ⟨rfl, fun _ _ => rfl⟩
  | step _ hstep =>
    obtain ⟨b, -, -, hb, rfl⟩ := stepLen_goOn_iff.1 hstep
    exact ⟨rfl, fun _ => reverse_get_outside hb⟩

theorem bufLength_runKeeps (n : Nat) : RunKeeps fun s => s.buf.length = n where
  raise c info s _ h := by rw [faultEntry_changes]; exact h
  step _ _ _ ht h := by
    obtain ⟨b, -, -, hb, rfl⟩ := stepLen_goOn_iff.1 ht
    exact (reverse_length hb).trans h
  advance _ _ h := h
  nextRound _ _ h := h

/-- Settles O50: a `RUN` that is not refused only moves the scrambler's registers before it answers or enters a fault,
and every reversal keeps the number of entries. -/
theorem runFrame : Obligations.RunFrame := by
  unfold Obligations.RunFrame
  intro r s t h
  cases exec_effect h with
  | answers _ hreads => cases hreads
  | rejects | traps => exact ⟨rfl, rfl⟩
  | run hr hrun =>
    have hflow := runRounds_keeps (bufLength_runKeeps s.buf.length) r.toNat (startOfRun s) rfl
    refine ⟨?_, finish_keeps (fun _ _ h => h) hflow hrun⟩
    obtain ⟨_, ⟨_, _, _, _, _, rfl⟩, rfl | ⟨code, info, rfl⟩⟩ := run_moved hr.1 hrun <;> rfl

end Sys2Proof.Machine
end

section
/-! SUPPORT. The per-length step as the fold's step (spec/41_scrambler.md R105, R109): where a length can be processed the
model's step is the step of the left-fold, and a sequence of lengths either can be processed whole or stops at a first
entry. The settled obligation on `STEP` stands at the end. -/

namespace Sys2Proof.Machine

/-! ### The fold -/

/-- The reversal of R90 as the fold writes it, entry by entry. -/
theorem reverse_eq_reversedEntries {n c l : Nat} {old : List Byte} (hc : c < n) (hl : l ≤ n) (hold : old.length = n) :
    reverse n old c l = some ((List.range n).map (reversedEntry n c l old)) := by
  refine reverse_eq_some_of_get hc hl hold (by simp) fun p hp => ?_
  have hmirror : mirror n c l p < old.length := (mirror_lt hc hp).trans_eq hold.symm
  have hentry : reversedEntry n c l old p = old.getD (mirror n c l p) 0#8 := by
    rw [mirror, apply_ite (fun q => old.getD q 0#8)]
    rfl
  rw [List.getElem?_map, List.getElem?_range hp, Option.map_some, hentry, List.getD_eq_getElem _ _ hmirror,
    List.getElem?_eq_getElem hmirror]

theorem scramble_append (n : Nat) (x : Scramble) (a b : List Half) :
    scramble n x (a ++ b) = scramble n (scramble n x a) b :=
  List.foldl_append ..

theorem scramble_skip (n : Nat) (x : Scramble) (ls : List Half) : (scramble n x ls).skip = x.skip + ls.length := by
  induction ls generalizing x with
  | nil => rfl
  | cons l ls ih =>
    have htail : (scramble n x (l :: ls)).skip = x.skip + 1 + ls.length := ih (scrambleStep n x l)
    rw [htail, List.length_cons]
    omega

theorem scramble_cur_lt {n : Nat} {x : Scramble} (hx : x.cur < n) (ls : List Half) : (scramble n x ls).cur < n := by
  induction ls generalizing x with
  | nil => exact hx
  | cons l ls ih => exact ih (x := scrambleStep n x l) (Nat.mod_lt _ (by omega))

/-! ### The state after a sequence of lengths -/

/-- The state that differs from `s` in the scrambler's registers only, which hold `x`. -/
def withScramble (x : Scramble) (s : State) : State :=
  { s with buf := x.buf, cur := BitVec.ofNat 8 x.cur, skip := BitVec.ofNat 32 x.skip }

theorem scrambleOf_withScramble {x : Scramble} (hcur : x.cur < 256) (hskip : x.skip < 2 ^ 32) (s : State) :
    scrambleOf (withScramble x s) = x := by
  simp only [scrambleOf, withScramble, BitVec.toNat_ofNat, Nat.mod_eq_of_lt hcur, Nat.mod_eq_of_lt hskip]

/-- The state after the steps of a sequence of lengths, by the left-fold of R109. -/
def stepped (ls : List Half) (s : State) : State := withScramble (scramble (bufSize s) (scrambleOf s) ls) s

/-- A sequence of lengths can be processed: each fits the buffer, and the skip size can count them all (R105). Only `N`
and the skip size matter, so `⟨h.fit, h.count⟩` carries a fact `h` over to a state that has the same ones. -/
structure Processable (ls : List Half) (s : State) : Prop where
  fit : ∀ l ∈ ls, l.toNat ≤ bufSize s
  count : s.skip.toNat + ls.length < 2 ^ 32

/-- The next length `l` cannot be processed: it is too long, or the skip size is at its top (R105). -/
def Stops (l : Half) (s : State) : Prop := bufSize s < l.toNat ∨ s.skip = skipMax

/-- The state after a length that cannot be processed; the oversize check comes first (R105). -/
def stopped (l : Half) (s : State) : State :=
  trapped (if bufSize s < l.toNat then 4#4 else 9#4) (if bufSize s < l.toNat then l.setWidth 32 else skipMax) s

@[simp] theorem stepped_nil (s : State) : stepped [] s = s := by
  simp [stepped, withScramble, scramble, scrambleOf]

theorem Processable.left {a b : List Half} {s : State} (h : Processable (a ++ b) s) : Processable a s where
  fit l hl := h.fit l (List.mem_append_left b hl)
  count := by
    have := h.count
    rw [List.length_append] at this
    omega

/-- A buffer in use holds `N` entries, at most 256, with the cursor in it (R36 items 1 and 2). -/
theorem Running.buffer {s : State} (h : Running s) :
    s.buf.length = bufSize s ∧ s.cur.toNat < bufSize s ∧ bufSize s ≤ 256 := by
  obtain ⟨-, hsize, -, hcur⟩ := h.inv.buffer
  exact ⟨h.inv.storage.1, hcur h.ready.2, hsize⟩

/-- The registers hold what the fold computes: no width is too small for it. -/
theorem scrambleOf_stepped {ls : List Half} {s : State} (hs : Running s) (hp : Processable ls s) :
    scrambleOf (stepped ls s) = scramble (bufSize s) (scrambleOf s) ls := by
  obtain ⟨-, hcur, hsize⟩ := hs.buffer
  refine scrambleOf_withScramble ?_ (scramble_skip .. ▸ hp.count) s
  exact (scramble_cur_lt (x := scrambleOf s) hcur ls).trans_le hsize

theorem stepped_skip_toNat {ls : List Half} {s : State} (hs : Running s) (hp : Processable ls s) :
    (stepped ls s).skip.toNat = s.skip.toNat + ls.length :=
  (congrArg Scramble.skip (scrambleOf_stepped hs hp)).trans (scramble_skip ..)

theorem stepped_append {a : List Half} {s : State} (hs : Running s) (hp : Processable a s) (b : List Half) :
    stepped (a ++ b) s = stepped b (stepped a s) := by
  rw [stepped, scramble_append, ← scrambleOf_stepped hs hp]
  rfl

theorem stepped_cons {l : Half} {s : State} (hs : Running s) (hp : Processable [l] s) (ls : List Half) :
    stepped (l :: ls) s = stepped ls (stepped [l] s) :=
  stepped_append hs hp ls

theorem Processable.right {a b : List Half} {s : State} (hs : Running s) (h : Processable (a ++ b) s) :
    Processable b (stepped a s) where
  fit l hl := h.fit l (List.mem_append_right a hl)
  count := by
    have := h.count
    rw [List.length_append] at this
    rw [stepped_skip_toNat hs h.left]
    omega

/-! ### One step -/

theorem skip_eq_skipMax_iff {s : State} : s.skip = skipMax ↔ s.skip.toNat = 2 ^ 32 - 1 :=
  BitVec.toNat_eq

theorem processable_singleton_iff {l : Half} {s : State} : Processable [l] s ↔ ¬ Stops l s := by
  have hskip := s.skip.isLt
  rw [Stops, skip_eq_skipMax_iff]
  constructor
  · rintro ⟨hfit, hcount⟩
    have := hfit l (List.mem_singleton_self l)
    rw [List.length_singleton] at hcount
    omega
  · intro h
    refine ⟨fun x hx => ?_, ?_⟩
    · rw [List.mem_singleton.1 hx]
      omega
    · rw [List.length_singleton]
      omega

/-- The model's step of a length that can be processed is the fold's step (R105, R109). -/
theorem stepLen_of_processable {l : Half} {s : State} (hs : Running s) (hp : Processable [l] s) :
    stepLen l s = .goOn (stepped [l] s) := by
  obtain ⟨hlength, hcur, -⟩ := hs.buffer
  obtain ⟨hl, hskip⟩ := not_or.1 (processable_singleton_iff.1 hp)
  refine stepLen_goOn_iff.2 ⟨_, Nat.not_lt.1 hl, hskip, reverse_eq_reversedEntries hcur (Nat.not_lt.1 hl) hlength, ?_⟩
  have hcount : s.skip + 1#32 = BitVec.ofNat 32 (s.skip.toNat + 1) :=
    BitVec.eq_of_toNat_eq (BitVec.toNat_add ..)
  rw [hcount]
  rfl

/-- The two checks of `StepLen` and of `STEP`, where one of them fails (R105, R106). -/
theorem checks_of_stops {α : Type} {l : Half} {s : State} (f : Result → α) {rest : α} (hf : s.fault = false)
    (h : Stops l s) :
    (if l.toNat > bufSize s then f (raise .oversize (l.setWidth 32) s)
      else if s.skip = skipMax then f (raise .skipOvf s.skip s) else rest) = f (.next (stopped l s)) := by
  rw [raise_of_not_faulted _ _ hf, raise_of_not_faulted _ _ hf, stopped]
  by_cases hl : bufSize s < l.toNat
  · simp only [hl, if_true, causeCode]
  · simp only [hl, h.resolve_left hl, if_true, if_false, causeCode]

theorem stepLen_of_stops {l : Half} {s : State} (hf : s.fault = false) (h : Stops l s) :
    stepLen l s = .ended (.next (stopped l s)) :=
  checks_of_stops Flow.ended hf h

/-! ### A sequence of lengths -/

/-- Induction over a sequence of lengths that can be processed, step by step from the front. -/
theorem running_stepped {ls : List Half} {s : State} (hs : Running s) (hp : Processable ls s) :
    Running (stepped ls s) := by
  induction ls generalizing s with
  | nil => rwa [stepped_nil]
  | cons l ls ih =>
    have hl : Processable [l] s := hp.left (a := [l])
    have hnext : Running (stepped [l] s) := running_passKeeps.step l s _ (stepLen_of_processable hs hl) hs
    rw [stepped_cons hs hl]
    exact ih hnext (hp.right hs (a := [l]))

/-- Where a sequence can be processed and the next length too, so can the longer sequence. -/
theorem Processable.concat {ls : List Half} {l : Half} {s : State} (hs : Running s) (hp : Processable ls s)
    (hl : ¬ Stops l (stepped ls s)) : Processable (ls ++ [l]) s := by
  obtain ⟨hfit, hcount⟩ := processable_singleton_iff.2 hl
  rw [stepped_skip_toNat hs hp] at hcount
  refine ⟨fun x hx => ?_, by rwa [List.length_append, ← Nat.add_assoc]⟩
  rcases List.mem_append.1 hx with hx | hx
  · exact hp.fit x hx
  · exact hfit x hx

/-- A sequence of lengths can be processed whole, or it stops at a first entry. -/
theorem processable_or_stops {s : State} (hs : Running s) (ls : List Half) :
    Processable ls s ∨ ∃ a l b, ls = a ++ l :: b ∧ Processable a s ∧ Stops l (stepped a s) := by
  induction ls using List.reverseRecOn with
  | nil => exact .inl ⟨nofun, s.skip.isLt⟩
  | append_singleton ls x ih =>
    rcases ih with hp | ⟨a, l, b, rfl, hp, hstop⟩
    · by_cases hx : Stops x (stepped ls s)
      · exact .inr ⟨ls, x, [], rfl, hp, hx⟩
      · exact .inl (hp.concat hs hx)
    · exact .inr ⟨a, l, b ++ [x], by simp, hp, hstop⟩

/-! ### `STEP` -/

theorem running_clearDigest {s : State} (h : s.Inv) (hr : s.ready) : Running (clearDigest s) where
  inv := (rewind_inv (clearDigest_inv h) :)
  ready := hr
  noDigest := rfl

theorem exec_step_of_processable {l : Half} {s : State} (h : s.Inv) (hr : s.ready) (hp : Processable [l] s) :
    exec (.step l) s = .next (answered 0#32 (stepped [l] (clearDigest s))) := by
  obtain ⟨hl, hskip⟩ := not_or.1 (processable_singleton_iff.1 hp)
  rw [exec_step_ready l hr, if_neg hl, if_neg hskip,
    stepLen_of_processable (running_clearDigest h hr) ⟨hp.fit, hp.count⟩]
  rfl

theorem exec_step_of_stops {l : Half} {s : State} (hr : s.ready) (h : Stops l s) :
    exec (.step l) s = .next (stopped l s) :=
  (exec_step_ready l hr).trans (checks_of_stops id hr.1 h)

/-- Settles O25: a length that can be processed is a step of the fold, any other stops the command before any effect. -/
theorem stepCommandProcessesOneLength : Obligations.StepCommandProcessesOneLength := by
  unfold Obligations.StepCommandProcessesOneLength
  refine ⟨encodedAs_immOperand fun _ _ => rfl, fun _ => needsBuffer_of_needsNoBuffer_eq_false rfl,
    fun l s hr => ⟨fun hinv hl hskip => ?_, fun hl => ?_, fun hl hskip => ?_⟩⟩
  · have hp : Processable [l] s := processable_singleton_iff.2 (not_or.2 ⟨Nat.not_lt.2 hl, hskip⟩)
    have hs := running_clearDigest hinv hr
    have hx := scrambleOf_stepped hs (ls := [l]) ⟨hp.fit, hp.count⟩
    obtain ⟨hlength, hcur, -⟩ := hs.buffer
    exact ⟨_, _, _, [], isReversal_of_reverse (reverse_eq_reversedEntries hcur hl hlength), congrArg Scramble.cur hx,
      congrArg Scramble.skip hx, exec_step_of_processable hinv hr hp⟩
  · rw [exec_step_of_stops hr (.inl hl), stopped, if_pos hl, if_pos hl]
  · rw [exec_step_of_stops hr (.inr hskip), stopped, if_neg (Nat.not_lt.2 hl), if_neg (Nat.not_lt.2 hl)]
    rfl

end Sys2Proof.Machine
end

section
/-! SUPPORT. The passes of `RUN` as steps of the fold over the concatenated copies of the list (spec/41_scrambler.md R108,
R109): how far they get, and where the sequencer stands. The settled obligations stand after the lemmas they need. -/

namespace Sys2Proof.Machine

/-! ### Copies of the list -/

theorem rounds_add (q k : Nat) (list : List Half) : rounds (q + k) list = rounds q list ++ rounds k list := by
  rw [rounds, List.replicate_add, List.flatten_append]
  rfl

theorem rounds_succ (k : Nat) (list : List Half) : rounds (k + 1) list = list ++ rounds k list := by
  rw [rounds, List.replicate_succ, List.flatten_cons]
  rfl

@[simp] theorem rounds_length (r : Nat) (list : List Half) : (rounds r list).length = r * list.length := by
  simp [rounds]

/-- What stands before an entry of the copies is whole copies and a part of the copy that holds the entry. -/
theorem rounds_split {r : Nat} {list a b : List Half} {l : Half} (h : rounds r list = a ++ l :: b) :
    ∃ q k a' b', r = q + (k + 1) ∧ a = rounds q list ++ a' ∧ list = a' ++ l :: b' := by
  induction r generalizing a with
  | zero => simp [rounds] at h
  | succ r ih =>
    rw [rounds_succ] at h
    have hcopy : (∃ a', a = list ++ a' ∧ rounds r list = a' ++ l :: b) ∨ ∃ b', list = a ++ l :: b' := by
      rcases List.append_eq_append_iff.1 h with hpast | ⟨_ | ⟨x, b'⟩, hlist, hb⟩
      · exact .inl hpast
      · exact .inl ⟨[], by rw [hlist, List.append_nil, List.append_nil], hb.symm⟩
      · cases hb
        exact .inr ⟨b', hlist⟩
    rcases hcopy with ⟨a', rfl, hrest⟩ | ⟨b', hlist⟩
    · obtain ⟨q, k, a'', b', rfl, rfl, hlist⟩ := ih hrest
      exact ⟨q + 1, k, a'', b', by omega, by rw [rounds_succ, List.append_assoc], hlist⟩
    · exact ⟨0, r, a, b', by omega, rfl, hlist⟩

/-- The number of an entry gives its round and its index in the list. -/
theorem rounds_position {q : Nat} {list a' : List Half} (h : a'.length < list.length) :
    (rounds q list ++ a').length / list.length = q ∧ (rounds q list ++ a').length % list.length = a'.length := by
  rw [List.length_append, rounds_length, Nat.mul_comm, Nat.mul_add_div (by omega), Nat.mul_add_mod,
    Nat.div_eq_of_lt h, Nat.mod_eq_of_lt h]
  exact ⟨rfl, rfl⟩

/-! ### The passes -/

theorem runPass_succ_goOn {k : Nat} {l : Half} {s t : State} (hread : readList s s.lidx.toNat = some l)
    (hstep : stepLen l s = .goOn t) : runPass (k + 1) s = runPass k { t with lidx := t.lidx + 1#17 } := by
  simp only [runPass, hread, hstep]

theorem runPass_succ_ended {k : Nat} {l : Half} {s : State} {e : Result} (hread : readList s s.lidx.toNat = some l)
    (hstep : stepLen l s = .ended e) : runPass (k + 1) s = .ended e := by
  simp only [runPass, hread, hstep]

theorem runRounds_succ_goOn {k : Nat} {s t : State} (hpass : runPass s.lcnt.toNat s = .goOn t) :
    runRounds (k + 1) s = runRounds k { t with lidx := 0#17, rnd := t.rnd + 1#16 } := by
  simp only [runRounds, hpass]

theorem runRounds_succ_ended {k : Nat} {s : State} {e : Result} (hpass : runPass s.lcnt.toNat s = .ended e) :
    runRounds (k + 1) s = .ended e := by
  simp only [runRounds, hpass]

/-- The state with the sequencer at `(r, i)` (R24). -/
def atPosition (r : BitVec 16) (i : BitVec 17) (s : State) : State := { s with rnd := r, lidx := i }

theorem running_atPosition {s : State} (h : Running s) (r : BitVec 16) (i : BitVec 17) : Running (atPosition r i s) :=
  running_passKeeps.move s i r h

/-- An entry that the sequencer reads is not the last that its 17 bits count. -/
theorem lidx_succ_toNat {s : State} {l : Half} (hs : Running s) (hread : readList s s.lidx.toNat = some l) :
    (s.lidx + 1#17).toNat = s.lidx.toNat + 1 := by
  obtain ⟨hentry, -⟩ := List.getElem?_eq_some_iff.1 hread
  have hcount : s.ll.length = s.lcnt.toNat := hs.inv.storage.2.1
  have := s.lcnt.isLt
  rw [BitVec.toNat_add, BitVec.toNat_ofNat]
  omega

theorem readList_of_drop {s : State} {j : Nat} {l : Half} {rest : List Half} (h : s.ll.drop j = l :: rest) :
    readList s j = some l := by
  rw [readList, ← List.head?_drop, h]
  rfl

/-- Induction over entries that stand at the sequencer and can be processed: the pass goes on behind them. -/
theorem runPass_of_processable {ls : List Half} (k : Nat) {rest : List Half} {s : State} (hs : Running s)
    (hls : s.ll.drop s.lidx.toNat = ls ++ rest) (hp : Processable ls s) :
    runPass (ls.length + k) s =
      runPass k (atPosition s.rnd (s.lidx + BitVec.ofNat 17 ls.length) (stepped ls s)) := by
  induction ls generalizing s with
  | nil => simp [atPosition]
  | cons l ls ih =>
    have hl : Processable [l] s := hp.left (a := [l])
    have hread : readList s s.lidx.toNat = some l := readList_of_drop hls
    have hnext : Running (atPosition s.rnd (s.lidx + 1#17) (stepped [l] s)) :=
      running_atPosition (running_stepped hs hl) _ _
    have hdrop : s.ll.drop (s.lidx + 1#17).toNat = ls ++ rest := by
      rw [lidx_succ_toNat hs hread, ← List.drop_drop, hls]
      rfl
    have hindex : s.lidx + BitVec.ofNat 17 (ls.length + 1) = s.lidx + 1#17 + BitVec.ofNat 17 ls.length := by
      rw [Nat.add_comm, BitVec.ofNat_add, ← BitVec.add_assoc]
    obtain ⟨hfit, hcount⟩ := hp.right hs (a := [l])
    rw [List.length_cons, hindex, stepped_cons hs hl, Nat.add_right_comm,
      runPass_succ_goOn hread (stepLen_of_processable hs hl)]
    exact ih hnext hdrop ⟨hfit, hcount⟩

/-- A pass from the first entry to the end of the list. -/
theorem runPass_whole {s : State} (hs : Running s) (hi : s.lidx = 0#17) (hp : Processable s.ll s) :
    runPass s.lcnt.toNat s = .goOn (atPosition s.rnd s.lcnt (stepped s.ll s)) := by
  have hcount : s.ll.length = s.lcnt.toNat := hs.inv.storage.2.1
  have hpass := runPass_of_processable 0 (rest := []) hs (by rw [hi, List.append_nil]; rfl) hp
  rw [hcount, hi, BitVec.zero_add, BitVec.ofNat_toNat, BitVec.setWidth_eq] at hpass
  exact hpass

/-- A pass from the first entry ends at the first entry that cannot be processed, its step not begun. -/
theorem runPass_of_stops {ls rest : List Half} {l : Half} {s : State} (hs : Running s) (hi : s.lidx = 0#17)
    (hll : s.ll = ls ++ l :: rest) (hp : Processable ls s) (hstop : Stops l (stepped ls s)) :
    runPass s.lcnt.toNat s =
      .ended (.next (stopped l (atPosition s.rnd (BitVec.ofNat 17 ls.length) (stepped ls s)))) := by
  have hcount : s.lcnt.toNat = ls.length + (rest.length + 1) := by
    rw [← hs.inv.storage.2.1, hll, List.length_append, List.length_cons]
  have hpass := runPass_of_processable (rest.length + 1) hs (by rw [hi]; exact hll) hp
  rw [hcount, hpass, hi, BitVec.zero_add]
  refine runPass_succ_ended (l := l) (readList_of_drop (rest := rest) ?_)
    (stepLen_of_stops (running_stepped hs hp).ready.1 hstop)
  have hindex : (BitVec.ofNat 17 ls.length).toNat = ls.length :=
    Nat.mod_eq_of_lt (by have := s.lcnt.isLt; omega)
  show s.ll.drop (BitVec.ofNat 17 ls.length).toNat = l :: rest
  rw [hindex, hll, List.drop_left]

/-- Induction over rounds whose entries can all be processed: the command goes on with the next round. -/
theorem runRounds_of_processable (q k : Nat) {s : State} (hs : Running s) (hi : s.lidx = 0#17)
    (hp : Processable (rounds q s.ll) s) :
    runRounds (q + k) s =
      runRounds k (atPosition (s.rnd + BitVec.ofNat 16 q) 0#17 (stepped (rounds q s.ll) s)) := by
  induction q generalizing s with
  | zero => simp [rounds, atPosition, ← hi]
  | succ q ih =>
    rw [rounds_succ] at hp
    have hnext : Running (atPosition (s.rnd + 1#16) 0#17 (stepped s.ll s)) :=
      running_atPosition (running_stepped hs hp.left) _ _
    have hrnd : s.rnd + BitVec.ofNat 16 (q + 1) = s.rnd + 1#16 + BitVec.ofNat 16 q := by
      rw [Nat.add_comm q, BitVec.ofNat_add, ← BitVec.add_assoc]
    obtain ⟨hfit, hcount⟩ := hp.right hs
    rw [rounds_succ, hrnd, stepped_append hs hp.left, Nat.add_right_comm,
      runRounds_succ_goOn (runPass_whole hs hi hp.left)]
    exact ih hnext rfl ⟨hfit, hcount⟩

/-- Rounds end at the first entry that cannot be processed. -/
theorem runRounds_of_stops {q k : Nat} {l : Half} {a' b' : List Half} {s : State} (hs : Running s) (hi : s.lidx = 0#17)
    (hll : s.ll = a' ++ l :: b') (hp : Processable (rounds q s.ll ++ a') s)
    (hstop : Stops l (stepped (rounds q s.ll ++ a') s)) :
    runRounds (q + (k + 1)) s =
      .ended (.next (stopped l
        (atPosition (s.rnd + BitVec.ofNat 16 q) (BitVec.ofNat 17 a'.length) (stepped (rounds q s.ll ++ a') s)))) := by
  have hnext : Running (atPosition (s.rnd + BitVec.ofNat 16 q) 0#17 (stepped (rounds q s.ll) s)) :=
    running_atPosition (running_stepped hs hp.left) _ _
  obtain ⟨hfit, hcount⟩ := hp.right hs
  rw [stepped_append hs hp.left] at hstop ⊢
  rw [runRounds_of_processable q (k + 1) hs hi hp.left]
  exact runRounds_succ_ended (runPass_of_stops hnext rfl hll ⟨hfit, hcount⟩ hstop)

/-! ### The command -/

/-- The state of a `RUN` from `s` that has processed `ls` and stands at `(r, i)` (R108). -/
def ranTo (r : BitVec 16) (i : BitVec 17) (ls : List Half) (s : State) : State :=
  atPosition r i (stepped ls (clearDigest s))

theorem exec_run_of_processable {r : Half} {s : State} (h : s.Inv) (hr : s.ready)
    (hp : Processable (rounds r.toNat s.ll) s) :
    exec (.run r) s = .next (answered 0#32 (ranTo r 0#17 (rounds r.toNat s.ll) s)) := by
  have hrounds := runRounds_of_processable r.toNat 0 (running_startOfRun h hr) rfl ⟨hp.fit, hp.count⟩
  have hrnd : (startOfRun s).rnd + BitVec.ofNat 16 r.toNat = r := by simp [startOfRun]
  rw [hrnd] at hrounds
  rw [exec_run_ready r hr]
  exact congrArg finish hrounds

/-- `RUN` ends at the first entry that cannot be processed, the sequencer standing there. -/
theorem exec_run_of_stops {r l : Half} {s : State} {a b : List Half} (h : s.Inv) (hr : s.ready)
    (hsplit : rounds r.toNat s.ll = a ++ l :: b) (hp : Processable a s) (hstop : Stops l (stepped a s)) :
    exec (.run r) s = .next (stopped l
      (ranTo (BitVec.ofNat 16 (a.length / s.lcnt.toNat)) (BitVec.ofNat 17 (a.length % s.lcnt.toNat)) a s)) := by
  obtain ⟨q, k, a', b', hq, rfl, hll⟩ := rounds_split hsplit
  have hshort : a'.length < s.ll.length := by
    rw [hll, List.length_append, List.length_cons]
    omega
  obtain ⟨hround, hindex⟩ := rounds_position (q := q) hshort
  have hrounds := runRounds_of_stops (k := k) (running_startOfRun h hr) rfl hll ⟨hp.fit, hp.count⟩ hstop
  have hrnd : (startOfRun s).rnd + BitVec.ofNat 16 q = BitVec.ofNat 16 q := BitVec.zero_add _
  rw [hrnd, ← hq] at hrounds
  rw [exec_run_ready r hr, ← h.storage.2.1, hround, hindex]
  exact congrArg finish hrounds

/-- Settles O26: the registers hold what the fold computes, since the skip size can count all the steps. -/
theorem runIsTheFoldOverTheRounds : Obligations.RunIsTheFoldOverTheRounds := by
  unfold Obligations.RunIsTheFoldOverTheRounds
  refine ⟨encodedAs_immOperand fun _ _ => rfl, fun _ => needsBuffer_of_needsNoBuffer_eq_false rfl,
    fun r s hinv hr hfit hcount => ?_⟩
  have hlength : (rounds r.toNat s.ll).length = r.toNat * s.lcnt.toNat := by rw [rounds_length, hinv.storage.2.1]
  have hp : Processable (rounds r.toNat s.ll) s := ⟨hfit, hlength ▸ hcount⟩
  have hs := running_clearDigest hinv hr
  have hp' : Processable (rounds r.toNat s.ll) (clearDigest s) := ⟨hp.fit, hp.count⟩
  exact ⟨_, _, _, (scrambleOf_stepped hs hp').symm, hlength ▸ stepped_skip_toNat hs hp',
    exec_run_of_processable hinv hr hp⟩

/-- Settles O27: the entry `m` of the copies is the first that cannot be processed. -/
theorem runStopsAtTheOffendingEntry : Obligations.RunStopsAtTheOffendingEntry := by
  unfold Obligations.RunStopsAtTheOffendingEntry
  intro r s m l hinv hr hentry hfit hcount hoffends
  obtain ⟨hm, hl⟩ := List.getElem?_eq_some_iff.1 hentry
  have hlength : ((rounds r.toNat s.ll).take m).length = m := List.length_take_of_le hm.le
  have hsplit : rounds r.toNat s.ll = (rounds r.toNat s.ll).take m ++ l :: (rounds r.toNat s.ll).drop (m + 1) := by
    rw [← hl, List.getElem_cons_drop, List.take_append_drop]
  have hp : Processable ((rounds r.toNat s.ll).take m) (clearDigest s) := ⟨hfit, by rwa [hlength]⟩
  have hs := running_clearDigest hinv hr
  have hstop : Stops l (stepped ((rounds r.toNat s.ll).take m) (clearDigest s)) := by
    rwa [Stops, skip_eq_skipMax_iff, stepped_skip_toNat hs hp, hlength]
  have hrun := exec_run_of_stops hinv hr hsplit ⟨hp.fit, hp.count⟩ hstop
  rw [hlength] at hrun
  exact ⟨_, _, _, (scrambleOf_stepped hs hp).symm, hrun⟩

end Sys2Proof.Machine
end

section
/-! SUPPORT. `RUN` and the `STEP` commands as one fold (spec/41_scrambler.md R109): both take the scrambler's registers and
the fault registers through the lengths in order, up to the first fault. The settled obligations stand after the lemmas
they need. -/

namespace Sys2Proof.Machine

/-! ### The fold with its faults -/

/-- The registers that R109 compares: the scrambler's part and the fault registers. -/
structure Progress where
  scrambled : Scramble
  fault : Bool
  cause : BitVec 4
  finfo : Word

/-- The registers that R109 compares, of a state. -/
def progressOf (s : State) : Progress := ⟨scrambleOf s, s.fault, s.cause, s.finfo⟩

/-- One length of the fold: nothing after a fault, the two checks of R105, or the fold's step. -/
def progressStep (n : Nat) (p : Progress) (l : Half) : Progress :=
  if p.fault then p
  else if n < l.toNat then { p with fault := true, cause := 4#4, finfo := l.setWidth 32 }
  else if p.scrambled.skip = 2 ^ 32 - 1 then { p with fault := true, cause := 9#4, finfo := skipMax }
  else { p with scrambled := scrambleStep n p.scrambled l }

theorem progressStep_of_faulted {p : Progress} (n : Nat) (l : Half) (h : p.fault = true) : progressStep n p l = p :=
  if_pos h

/-- Nothing of a sequence is done after a fault. -/
theorem progress_of_faulted {p : Progress} (n : Nat) (ls : List Half) (h : p.fault = true) :
    ls.foldl (progressStep n) p = p := by
  induction ls with
  | nil => rfl
  | cons l ls ih => rw [List.foldl_cons, progressStep_of_faulted n l h, ih]

theorem progressOf_stopped {l : Half} {s : State} (hf : s.fault = false) (h : Stops l s) :
    progressOf (stopped l s) = progressStep (bufSize s) (progressOf s) l := by
  rw [Stops, skip_eq_skipMax_iff] at h
  by_cases hl : bufSize s < l.toNat
  · simp [progressOf, progressStep, stopped, scrambleOf, hf, hl]
  · simp [progressOf, progressStep, stopped, scrambleOf, hf, hl, h.resolve_left hl]

theorem progressOf_stepped_singleton {l : Half} {s : State} (hs : Running s) (hp : Processable [l] s) :
    progressOf (stepped [l] s) = progressStep (bufSize s) (progressOf s) l := by
  have hgo := processable_singleton_iff.1 hp
  rw [Stops, skip_eq_skipMax_iff, not_or] at hgo
  obtain ⟨hl, hskip : (progressOf s).scrambled.skip ≠ 2 ^ 32 - 1⟩ := hgo
  have hx : scrambleOf (stepped [l] s) = scrambleStep (bufSize s) (scrambleOf s) l := scrambleOf_stepped hs hp
  rw [progressStep, if_neg (by simp [progressOf, hs.ready.1]), if_neg hl, if_neg hskip, progressOf, hx]
  rfl

theorem progressOf_stepped {ls : List Half} {s : State} (hs : Running s) (hp : Processable ls s) :
    progressOf (stepped ls s) = ls.foldl (progressStep (bufSize s)) (progressOf s) := by
  induction ls generalizing s with
  | nil => rw [stepped_nil]; rfl
  | cons l ls ih =>
    have hl : Processable [l] s := hp.left (a := [l])
    rw [stepped_cons hs hl, ih (running_stepped hs hl) (hp.right hs (a := [l])), progressOf_stepped_singleton hs hl]
    rfl

/-! ### The commands -/

theorem exec_faulted {i : Instr} {s : State} (hi : needsNoBuffer i = false) (hf : s.fault = true) :
    exec i s = .next (rejected 13#4 s) :=
  (needsBuffer_of_needsNoBuffer_eq_false hi).1 s hf

/-- `STEP` takes one length of the fold, and the buffer in use stays the same size. -/
theorem exec_step_progress (l : Half) {s : State} (h : s.Inv) (hi : s.initd = true) :
    ∃ t, exec (.step l) s = .next t ∧ t.initd = true ∧ bufSize t = bufSize s ∧
      progressOf t = progressStep (bufSize s) (progressOf s) l := by
  cases hf : s.fault with
  | true => exact ⟨_, exec_faulted rfl hf, hi, rfl, (progressStep_of_faulted _ l hf).symm⟩
  | false =>
    by_cases hstop : Stops l s
    · exact ⟨_, exec_step_of_stops ⟨hf, hi⟩ hstop, hi, rfl, progressOf_stopped hf hstop⟩
    · have hp := processable_singleton_iff.2 hstop
      exact ⟨_, exec_step_of_processable h ⟨hf, hi⟩ hp, hi, rfl,
        progressOf_stepped_singleton (running_clearDigest h ⟨hf, hi⟩) ⟨hp.fit, hp.count⟩⟩

/-- Induction over the lengths: the `STEP` commands take them one by one. -/
theorem execAll_steps_progress (ls : List Half) {s : State} (h : s.Inv) (hi : s.initd = true) :
    ∃ t, execAll (ls.map .step) s = .next t ∧ progressOf t = ls.foldl (progressStep (bufSize s)) (progressOf s) := by
  induction ls generalizing s with
  | nil => exact ⟨s, rfl, rfl⟩
  | cons l ls ih =>
    obtain ⟨u, hu, hui, hsize, hprogress⟩ := exec_step_progress l h hi
    obtain ⟨t, ht, hfold⟩ := ih (exec_inv h hu) hui
    refine ⟨t, ?_, ?_⟩
    · rw [List.map_cons, execAll, hu]
      exact ht
    · rw [hfold, hsize, hprogress, List.foldl_cons]

/-- `RUN` takes all the lengths of the copies of the list; they can all be processed, or a first one cannot. -/
theorem exec_run_progress (r : Half) {s : State} (h : s.Inv) (hi : s.initd = true) :
    ∃ t, exec (.run r) s = .next t ∧
      progressOf t = (rounds r.toNat s.ll).foldl (progressStep (bufSize s)) (progressOf s) := by
  cases hf : s.fault with
  | true => exact ⟨_, exec_faulted rfl hf, (progress_of_faulted _ _ hf).symm⟩
  | false =>
    have hr : s.ready := ⟨hf, hi⟩
    have hs := running_clearDigest h hr
    rcases processable_or_stops hs (rounds r.toNat s.ll) with hp | ⟨a, l, b, hsplit, hp, hstop⟩
    · exact ⟨_, exec_run_of_processable h hr ⟨hp.fit, hp.count⟩, progressOf_stepped hs hp⟩
    · refine ⟨_, exec_run_of_stops h hr hsplit ⟨hp.fit, hp.count⟩ hstop, ?_⟩
      have hstopped := progressOf_stopped (running_stepped hs hp).ready.1 hstop
      rw [progressOf_stepped hs hp] at hstopped
      rw [hsplit, List.foldl_append, List.foldl_cons]
      refine Eq.trans hstopped (progress_of_faulted _ _ ?_).symm
      exact congrArg Progress.fault hstopped.symm

theorem same_of_progressOf_eq {t u : State} (h : progressOf t = progressOf u) :
    t.buf = u.buf ∧ t.cur = u.cur ∧ t.skip = u.skip ∧
      t.fault = u.fault ∧ t.cause = u.cause ∧ t.finfo = u.finfo := by
  obtain ⟨hx, hfault, hcause, hfinfo⟩ := Progress.mk.inj h
  obtain ⟨hbuf, hcur, hskip⟩ := Scramble.mk.inj hx
  exact ⟨hbuf, BitVec.eq_of_toNat_eq hcur, BitVec.eq_of_toNat_eq hskip, hfault, hcause, hfinfo⟩

/-- Settles O28: both sides are the fold over the copies of the list. -/
theorem runEqualsTheStepsItFlattensTo : Obligations.RunEqualsTheStepsItFlattensTo := by
  unfold Obligations.RunEqualsTheStepsItFlattensTo
  intro r s hinv hr
  obtain ⟨t, ht, hrun⟩ := exec_run_progress r hinv hr.2
  obtain ⟨u, hu, hsteps⟩ := execAll_steps_progress (rounds r.toNat s.ll) hinv hr.2
  exact ⟨t, u, ht, hu, same_of_progressOf_eq (hrun.trans hsteps.symm)⟩

/-- Settles O29: the fold over `r₁ + r₂` copies is the fold over `r₁`, then over `r₂`; the first run keeps the list. -/
theorem runsAddUp : Obligations.RunsAddUp := by
  unfold Obligations.RunsAddUp
  intro r₁ r₂ s hinv hr hsum
  obtain ⟨v, hv, hfirst⟩ := exec_run_progress r₁ hinv hr.2
  obtain ⟨hframe, -⟩ := runFrame r₁ s v hv
  have hlist : v.ll = s.ll := by rw [hframe]
  have hinitd : v.initd = true := by rw [hframe]; exact hr.2
  have hsize : bufSize v = bufSize s := by rw [hframe]; rfl
  obtain ⟨t, ht, hsecond⟩ := exec_run_progress r₂ (exec_inv hinv hv) hinitd
  obtain ⟨u, hu, hboth⟩ := exec_run_progress (r₁ + r₂) hinv hr.2
  have hrounds : (r₁ + r₂).toNat = r₁.toNat + r₂.toNat := BitVec.toNat_add_of_lt (by omega)
  rw [hrounds, rounds_add, List.foldl_append, ← hfirst, ← hlist, ← hsize, ← hsecond] at hboth
  obtain ⟨hbuf, hcur, hskip, -⟩ := same_of_progressOf_eq hboth.symm
  refine ⟨t, u, ?_, hu, hbuf, hcur, hskip⟩
  rw [execAll, hv]
  simp only [execAll, ht]

end Sys2Proof.Machine
end

section
/-! SUPPORT. The block reduction as a chain, a tree and an entry by entry fold of exclusive-ors (spec/42_reducer.md
R120, R122), and the commands `REDUCE` and `RDDIG` (R121, R123), each clause for a core that is ready. The settled obligations
stand after the lemmas they need. -/

namespace Sys2Proof.Machine

/-! ### Order and grouping (R122) -/

theorem xorChain_perm {xs ys : List Byte} (h : xs.Perm ys) : xs.foldl (· ^^^ ·) 0#8 = ys.foldl (· ^^^ ·) 0#8 :=
  h.foldl_op_eq

/-- A chain from any start is the start combined with the chain from 0. -/
theorem xorChain_from (x : Byte) (xs : List Byte) : xs.foldl (· ^^^ ·) x = x ^^^ xs.foldl (· ^^^ ·) 0#8 := by
  rw [← List.foldl_assoc (op := fun x y : Byte => x ^^^ y), BitVec.xor_zero]

/-- Induction over the gates: a tree gives the chain over its leaves. -/
theorem XorTree.root_eq_chain (t : XorTree) : t.root = t.leaves.foldl (· ^^^ ·) 0#8 := by
  induction t with
  | leaf x => exact BitVec.zero_xor.symm
  | gate l r ihl ihr => rw [root, leaves, List.foldl_append, xorChain_from, ihl, ihr]

/-- The elements of block `i` are the 16 entries from position `16 * i` (R120). -/
theorem blockElements_congr {a b : List Byte} {i : Nat} (h : ∀ k, k < 16 → a[16 * i + k]? = b[16 * i + k]?) :
    (a.drop (16 * i)).take 16 = (b.drop (16 * i)).take 16 := by
  refine List.ext_getElem? fun k => ?_
  simp only [List.getElem?_take, List.getElem?_drop]
  exact ite_congr rfl (h k) fun _ => rfl

/-- Settles O38: a chain may be permuted, a tree is the chain over its leaves, and a block is the chain over its own
entries. -/
theorem blockReductionIsOrderFree : Obligations.BlockReductionIsOrderFree := by
  unfold Obligations.BlockReductionIsOrderFree
  exact ⟨fun _ _ => xorChain_perm,
    fun buf i gates hperm => gates.root_eq_chain.trans (xorChain_perm hperm),
    fun a b i hown => congrArg (List.foldl (· ^^^ ·) 0#8) (blockElements_congr hown)⟩

/-! ### The digest bytes, entry by entry -/

/-- Induction on the number of entries taken: an entry that is not there counts as 0. -/
theorem xorChain_take (xs : List Byte) (n : Nat) :
    (xs.take n).foldl (· ^^^ ·) 0#8 = (List.range n).foldl (fun x k => x ^^^ xs.getD k 0#8) 0#8 := by
  induction n with
  | zero => rfl
  | succ n ih =>
    rw [List.take_add_one, List.foldl_append, ih, List.range_succ, List.foldl_append, List.foldl_cons, List.foldl_nil,
      List.getD_eq_getElem?_getD]
    cases xs[n]? with
    | none => exact BitVec.xor_zero.symm
    | some x => rfl

theorem block_eq_xorOfBlock (buf : List Byte) (i : Nat) : block buf i = xorOfBlock buf i := by
  refine (xorChain_take ..).trans ?_
  simp only [xorOfBlock, blockSize, List.getD_eq_getElem?_getD, List.getElem?_drop]

theorem blocks_get (buf : List Byte) {n i : Nat} (hi : i < n / 16) : (blocks buf n)[i]? = some (xorOfBlock buf i) := by
  rw [blocks, blockSize, List.getElem?_map, List.getElem?_range hi, Option.map_some, block_eq_xorOfBlock]

/-- A valid digest holds the reductions of the blocks of the present buffer (R36 item 6). -/
theorem digest_get {s : State} {i : Nat} (h : s.Inv) (hv : s.dvalid = true) (hi : i < s.dcnt.toNat) :
    s.dig[i]? = some (xorOfBlock s.buf i) := by
  have hdigest := h.digest
  rw [State.digestOk, if_pos hv] at hdigest
  obtain ⟨-, -, hcount, hbytes⟩ := hdigest
  rw [hbytes, blocks_get _ (hcount ▸ hi)]

/-! ### `REDUCE` -/

theorem exec_reduce_misaligned {s : State} (hr : s.ready) (h : bufSize s % blockSize ≠ 0) :
    exec .reduce s = .next (trapped 5#4 (s.nreg.setWidth 32) s) := by
  rw [exec_reduce_ready hr, if_pos h, raise_of_not_faulted _ _ hr.1]
  rfl

theorem exec_reduce_of_blocks {s : State} (hr : s.ready) (h : bufSize s % blockSize = 0)
    (hbuf : s.buf.length = bufSize s) : exec .reduce s = .next (answered 0#32 (withDigest s)) := by
  rw [exec_reduce_ready hr, if_neg (not_not.2 h), if_neg (not_not.2 hbuf)]
  rfl

/-- Settles O30: with whole blocks the command leaves the digest of the present buffer, whose count fits `DCNT` by the
invariants; otherwise the size check comes before any effect. -/
theorem reduceXorsTheBlocks : Obligations.ReduceXorsTheBlocks := by
  unfold Obligations.ReduceXorsTheBlocks
  refine ⟨encodedAs_noOperand fun _ _ => rfl, needsBuffer_of_needsNoBuffer_eq_false rfl,
    fun s hr => ⟨fun hinv hblocks => ?_, exec_reduce_misaligned hr⟩⟩
  obtain ⟨hbuf, -, -⟩ := hinv.storage
  obtain ⟨-, -, hcount, -⟩ := (withDigest_inv hinv hr hblocks).digest
  exact ⟨blocks s.buf (bufSize s), _, blocks_length .., hcount, fun i => blocks_get s.buf,
    exec_reduce_of_blocks hr hblocks hbuf⟩

/-- Settles O52: a `REDUCE` that answers is refused, enters a fault, or writes the digest. -/
theorem reduceFrame : Obligations.ReduceFrame := by
  unfold Obligations.ReduceFrame
  intro s t h
  cases exec_effect h with
  | answers _ hreads => cases hreads
  | rejects | traps | reduce => rfl

/-! ### `RDDIG` -/

theorem exec_rddig_noDigest {i : Byte} {s : State} (hr : s.ready) (hv : s.dvalid = false) :
    exec (.rddig i) s = .next (trapped 10#4 (i.setWidth 32) s) := by
  rw [exec_rddig_ready i hr, if_pos hv, raise_of_not_faulted _ _ hr.1]
  rfl

theorem exec_rddig_index {i : Byte} {s : State} (hr : s.ready) (hv : s.dvalid = true) (hi : s.dcnt.toNat ≤ i.toNat) :
    exec (.rddig i) s = .next (trapped 7#4 (i.setWidth 32) s) := by
  rw [exec_rddig_ready i hr, if_neg (ne_false_of_eq_true hv), if_pos hi, raise_of_not_faulted _ _ hr.1]
  rfl

theorem exec_rddig_of_byte {i v : Byte} {s : State} (hr : s.ready) (hv : s.dvalid = true)
    (hi : i.toNat < s.dcnt.toNat) (hbyte : s.dig[i.toNat]? = some v) :
    exec (.rddig i) s = .next (answered (v.setWidth 32) s) := by
  rw [exec_rddig_ready i hr, if_neg (ne_false_of_eq_true hv), if_neg (Nat.not_le.2 hi), readDigest, hbyte]
  rfl

/-- Settles O31: the digest's validity is checked first, then the index, and a valid digest is that of the present
buffer. -/
theorem rddigReadsThePresentDigest : Obligations.RddigReadsThePresentDigest := by
  unfold Obligations.RddigReadsThePresentDigest
  refine ⟨encodedAs_aOperand fun _ _ => rfl, fun _ => needsBuffer_of_needsNoBuffer_eq_false rfl,
    fun i s hr => ⟨fun hinv hv hi => ?_, exec_rddig_index hr, exec_rddig_noDigest hr⟩⟩
  have hbyte := digest_get hinv hv hi
  exact ⟨hbyte, exec_rddig_of_byte hr hv hi hbyte⟩

end Sys2Proof.Machine
end

section
/-! SUPPORT. The hex characters and the pairs of them (spec/43_hex_encoder.md R130 to R132): a listed character is the
character of a digit, and a byte is its two digits. The settled obligation on the functions of the encoder (R136) stands
at the end. -/

namespace Sys2Proof.Machine

/-! ### One character (R131) -/

theorem hexDigit_hexChar (d : BitVec 4) : hexDigit (hexChar d) = some d := by
  revert d; decide

theorem hexChar_ofNat {n : Nat} (h : n < 16) :
    hexChar (BitVec.ofNat 4 n) = if n ≤ 9 then BitVec.ofNat 8 (0x30 + n) else BitVec.ofNat 8 (0x61 + (n - 10)) := by
  rw [hexChar, BitVec.toNat_ofNat, Nat.mod_eq_of_lt h]

/-- A character that decodes lies in one of the two ranges, at its digit's place there. -/
theorem hexChar_of_hexDigit {x : Byte} {d : BitVec 4} (h : hexDigit x = some d) : hexChar d = x := by
  unfold hexDigit at h
  split_ifs at h with hdecimal hletter <;> cases h
  · rw [hexChar_ofNat (by omega), if_pos (by omega), Nat.add_sub_cancel' hdecimal.1, BitVec.ofNat_toNat,
      BitVec.setWidth_eq]
  · rw [hexChar_ofNat (by omega), if_neg (by omega), Nat.add_sub_cancel, Nat.add_sub_cancel' hletter.1,
      BitVec.ofNat_toNat, BitVec.setWidth_eq]

/-- The table of R131 lists the character of each digit at the digit's place. -/
theorem hexCodes_get (d : BitVec 4) : hexCodes[d.toNat]? = some (hexChar d) := by
  revert d; decide

theorem hexCodes_get_eq_some {n : Nat} {x : Byte} (h : hexCodes[n]? = some x) :
    ∃ d : BitVec 4, d.toNat = n ∧ hexChar d = x := by
  obtain ⟨hn, -⟩ := List.getElem?_eq_some_iff.1 h
  obtain ⟨d, rfl⟩ : ∃ d : BitVec 4, d.toNat = n := ⟨BitVec.ofNatLT n hn, BitVec.toNat_ofNatLT ..⟩
  exact ⟨d, rfl, Option.some_inj.1 ((hexCodes_get d).symm.trans h)⟩

theorem mem_hexCodes_iff {x : Byte} : x ∈ hexCodes ↔ ∃ d, hexChar d = x := by
  constructor
  · intro h
    obtain ⟨n, hn⟩ := List.mem_iff_getElem?.1 h
    obtain ⟨d, -, hd⟩ := hexCodes_get_eq_some hn
    exact ⟨d, hd⟩
  · rintro ⟨d, rfl⟩
    exact List.mem_of_getElem? (hexCodes_get d)

/-- A character decodes exactly when the table lists it. -/
theorem hexDigit_cases (x : Byte) :
    (∃ d, hexDigit x = some d ∧ hexChar d = x) ∨ (hexDigit x = none ∧ x ∉ hexCodes) := by
  cases hx : hexDigit x with
  | some d => exact .inl ⟨d, rfl, hexChar_of_hexDigit hx⟩
  | none =>
    refine .inr ⟨rfl, fun hmem => ?_⟩
    obtain ⟨d, rfl⟩ := mem_hexCodes_iff.1 hmem
    rw [hexDigit_hexChar] at hx
    cases hx

/-! ### A byte and its two digits (R130) -/

theorem highNibble_append (d e : BitVec 4) : highNibble (d ++ e) = d := BitVec.extractLsb'_append_eq_left

theorem lowNibble_append (d e : BitVec 4) : lowNibble (d ++ e) = e := BitVec.extractLsb'_append_eq_right

theorem highNibble_append_lowNibble (b : Byte) : highNibble b ++ lowNibble b = b :=
  BitVec.extractLsb'_append_extractLsb'

theorem highNibble_toNat (b : Byte) : (highNibble b).toNat = b.toNat / 16 := by
  simp only [highNibble, BitVec.extractLsb'_toNat, Nat.shiftRight_eq_div_pow]
  omega

theorem lowNibble_toNat (b : Byte) : (lowNibble b).toNat = b.toNat % 16 := by
  simp [lowNibble]

theorem digits_toNat (d e : BitVec 4) : (d ++ e).toNat = 16 * d.toNat + e.toNat := by
  rw [BitVec.toNat_append, ← Nat.shiftLeft_add_eq_or_of_lt e.isLt, Nat.shiftLeft_eq]
  omega

/-! ### Pairs of characters (R130, R132) -/

theorem hex2_append (d e : BitVec 4) : hex2 (d ++ e) = (hexChar d, hexChar e) := by
  rw [hex2, highNibble_append, lowNibble_append]

theorem unhex2_of_digits {h l : Byte} {d e : BitVec 4} (hd : hexDigit h = some d) (he : hexDigit l = some e) :
    unhex2 h l = some (d ++ e) := by
  rw [unhex2, hd, he]
  simp only [← digits_toNat, BitVec.ofNat_toNat, BitVec.setWidth_eq]

theorem unhex2_hex2 (b : Byte) : unhex2 (hex2 b).1 (hex2 b).2 = some b := by
  rw [hex2, unhex2_of_digits (hexDigit_hexChar _) (hexDigit_hexChar _), highNibble_append_lowNibble]

/-- Everything `Unhex2` can do: give the byte of two digits, or nothing where a character is not listed. -/
theorem unhex2_cases (h l : Byte) :
    (∃ d e, hexChar d = h ∧ hexChar e = l ∧ unhex2 h l = some (d ++ e)) ∨
    ((h ∉ hexCodes ∨ l ∉ hexCodes) ∧ unhex2 h l = none) := by
  rcases hexDigit_cases h with ⟨d, hd, hh⟩ | ⟨hd, hh⟩
  · rcases hexDigit_cases l with ⟨e, he, hl⟩ | ⟨he, hl⟩
    · exact .inl ⟨d, e, hh, hl, unhex2_of_digits hd he⟩
    · exact .inr ⟨.inr hl, by rw [unhex2, hd, he]⟩
  · exact .inr ⟨.inl hh, by rw [unhex2, hd]⟩

theorem unhex2_of_unlisted {h l : Byte} (hout : h ∉ hexCodes ∨ l ∉ hexCodes) : unhex2 h l = none := by
  rcases unhex2_cases h l with ⟨d, e, rfl, rfl, -⟩ | ⟨-, hnone⟩
  · simp [mem_hexCodes_iff] at hout
  · exact hnone

theorem hex2_of_unhex2 {h l b : Byte} (hb : unhex2 h l = some b) : hex2 b = (h, l) := by
  rcases unhex2_cases h l with ⟨d, e, rfl, rfl, hde⟩ | ⟨-, hnone⟩
  · rw [← Option.some_inj.1 (hde.symm.trans hb), hex2_append]
  · rw [hnone] at hb
    cases hb

theorem hex2_injective : Function.Injective hex2 := fun a b h =>
  Option.some_inj.1 (by rw [← unhex2_hex2 a, h, unhex2_hex2])

/-- The image of `Hex2` is the pairs of listed characters. -/
theorem exists_hex2_eq_iff {h l : Byte} : (∃ b, hex2 b = (h, l)) ↔ h ∈ hexCodes ∧ l ∈ hexCodes := by
  rw [mem_hexCodes_iff, mem_hexCodes_iff]
  constructor
  · rintro ⟨b, hb⟩
    obtain ⟨hh, hl⟩ := Prod.mk.inj hb
    exact ⟨⟨_, hh⟩, _, hl⟩
  · rintro ⟨⟨d, rfl⟩, e, rfl⟩
    exact ⟨d ++ e, hex2_append d e⟩

/-- The pair of a byte read from the table of R131. -/
theorem hex2_eq_hexCodes (b : Byte) :
    hex2 b = (hexCodes.getD (b.toNat / 16) 0#8, hexCodes.getD (b.toNat % 16) 0#8) := by
  simp only [hex2, ← highNibble_toNat, ← lowNibble_toNat, List.getD_eq_getElem?_getD, hexCodes_get,
    Option.getD_some]

/-- Settles O39: a pair decodes to the byte of its digits. -/
theorem hexFunctionsAreInverse : Obligations.HexFunctionsAreInverse := by
  unfold Obligations.HexFunctionsAreInverse
  exact ⟨unhex2_hex2, fun _ _ _ => hex2_of_unhex2, fun _ _ h => hex2_injective h, fun _ _ => exists_hex2_eq_iff⟩

end Sys2Proof.Machine
end

section
/-! SUPPORT. The hex commands `HEXB`, `HEXD`, `RDHEX` (spec/43_hex_encoder.md R133 to R136), each clause for a core that
accepts them. The settled obligations stand after the lemmas they need. -/

namespace Sys2Proof.Machine

/-- A command that is its own rule behind step 2 of the decode order is refused there (R75). -/
theorem refusedWhileFaulted_of_acceptedWhileFaulted_eq_false {i : Instr} (h : acceptedWhileFaulted i = false) :
    RefusedWhileFaulted i := by
  obtain ⟨body, hbody⟩ := exec_behind_unlessFaulted h
  exact fun s hf => by rw [hbody, unlessFaulted_faulted hf]

/-! ### Packed pairs (R72) -/

theorem firstChar_append (h l : Byte) : firstChar (h ++ l) = h := BitVec.extractLsb'_append_eq_left

theorem secondChar_append (h l : Byte) : secondChar (h ++ l) = l := BitVec.extractLsb'_append_eq_right

theorem firstChar_append_secondChar (h : Half) : firstChar h ++ secondChar h = h :=
  BitVec.extractLsb'_append_extractLsb'

theorem setWidth_pair (h l : Byte) : (h ++ l).setWidth 32 = 0#16 ++ h ++ l := by
  rw [BitVec.append_assoc, BitVec.setWidth_eq_append (by decide)]

theorem setWidth_digits (d e : BitVec 4) : (d ++ e).setWidth 32 = BitVec.ofNat 32 (16 * d.toNat + e.toNat) := by
  rw [← digits_toNat, BitVec.ofNat_toNat]

/-! ### `HEXB` -/

theorem exec_hexb_of_hex2 {b h l : Byte} {s : State} (hf : s.fault = false) (hb : hex2 b = (h, l)) :
    exec (.hexb b) s = .next (answered ((h ++ l).setWidth 32) s) := by
  rw [exec_hexb_ok b hf, hb]
  rfl

/-- Settles O32: the two characters of R130 are the table's. -/
theorem hexbEncodesTheByte : Obligations.HexbEncodesTheByte := by
  unfold Obligations.HexbEncodesTheByte
  refine ⟨encodedAs_aOperand fun _ _ => rfl, fun _ => refusedWhileFaulted_of_acceptedWhileFaulted_eq_false rfl,
    fun b s hf => ?_⟩
  rw [exec_hexb_of_hex2 hf (hex2_eq_hexCodes b), setWidth_pair]

/-! ### `HEXD` -/

theorem exec_hexd_of_unhex2 {h l b : Byte} {s : State} (hf : s.fault = false) (hb : unhex2 h l = some b) :
    exec (.hexd (h ++ l)) s = .next (answered (b.setWidth 32) s) := by
  rw [exec_hexd_ok _ hf, firstChar_append, secondChar_append, hb]
  rfl

theorem exec_hexd_badHex {h l : Byte} {s : State} (hf : s.fault = false) (hnone : unhex2 h l = none) :
    exec (.hexd (h ++ l)) s = .next (trapped 11#4 (0#16 ++ h ++ l) s) := by
  rw [exec_hexd_ok _ hf, firstChar_append, secondChar_append, hnone, ← setWidth_pair]
  exact raise_of_not_faulted _ _ hf

/-- Settles O33: the listed codes are those of the digits, whose byte is answered. -/
theorem hexdDecodesExactlyTheListedPairs : Obligations.HexdDecodesExactlyTheListedPairs := by
  unfold Obligations.HexdDecodesExactlyTheListedPairs
  refine ⟨encodedAs_immOperand fun _ _ => rfl, fun _ => refusedWhileFaulted_of_acceptedWhileFaulted_eq_false rfl,
    fun d e h l s hf hd he => ?_, fun h l s hf hout => exec_hexd_badHex hf (unhex2_of_unlisted hout)⟩
  obtain ⟨d, rfl, rfl⟩ := hexCodes_get_eq_some hd
  obtain ⟨e, rfl, rfl⟩ := hexCodes_get_eq_some he
  rw [exec_hexd_of_unhex2 hf (unhex2_of_digits (hexDigit_hexChar d) (hexDigit_hexChar e)), setWidth_digits]

/-! ### The round trip (R136) -/

theorem setWidth_byte_injective : Function.Injective fun b : Byte => b.setWidth 32 :=
  Function.LeftInverse.injective (g := fun w => w.setWidth 8) fun b => by simp

theorem answered_injective (s : State) : Function.Injective fun v => answered v s := fun _ _ h =>
  congrArg Response.data (Option.some_inj.1 (congrArg (·.rsp) h))

theorem trapped_ne_answered {s : State} (hf : s.fault = false) (code : BitVec 4) (info v : Word) :
    trapped code info s ≠ answered v s := fun h =>
  Bool.noConfusion ((congrArg (·.fault) h).trans hf)

/-- A pair for which `HEXD` answers a byte decodes to that byte: a pair that does not decode leaves a fault. -/
theorem unhex2_of_exec_hexd {h l b : Byte} {s : State} (hf : s.fault = false)
    (hanswer : exec (.hexd (h ++ l)) s = .next (answered (b.setWidth 32) s)) : unhex2 h l = some b := by
  cases hb : unhex2 h l with
  | none =>
    rw [exec_hexd_badHex hf hb] at hanswer
    injection hanswer with hstate
    exact (trapped_ne_answered hf _ _ _ hstate).elim
  | some c =>
    rw [exec_hexd_of_unhex2 hf hb] at hanswer
    injection hanswer with hstate
    rw [setWidth_byte_injective (answered_injective s hstate)]

/-- Settles O40: both commands answer from the functions of the encoder, which are inverse. -/
theorem hexCommandsRoundTrip : Obligations.HexCommandsRoundTrip := by
  unfold Obligations.HexCommandsRoundTrip
  refine ⟨fun b s hf => ⟨_, exec_hexb_of_hex2 hf rfl, ?_⟩, fun h b s hf hanswer => ?_⟩
  · rw [BitVec.setWidth_setWidth_of_le _ (by decide), BitVec.setWidth_eq]
    exact exec_hexd_of_unhex2 hf (unhex2_hex2 b)
  · rw [← firstChar_append_secondChar h] at hanswer ⊢
    exact exec_hexb_of_hex2 hf (hex2_of_unhex2 (unhex2_of_exec_hexd hf hanswer))

/-! ### `RDHEX` -/

/-- The characters of a digest byte, the more significant nibble's at even indices (R135). -/
theorem hexCharacter_eq_hexCodes (j b : Byte) :
    hexCharacter j b = hexCodes.getD (if j.toNat % 2 = 0 then b.toNat / 16 else b.toNat % 16) 0#8 := by
  rw [hexCharacter, hex2_eq_hexCodes, apply_ite (fun n => hexCodes.getD n 0#8)]

theorem exec_rdhex_noDigest {j : Byte} {s : State} (hr : s.ready) (hv : s.dvalid = false) :
    exec (.rdhex j) s = .next (trapped 10#4 (j.setWidth 32) s) := by
  rw [exec_rdhex_ready j hr, if_pos hv, raise_of_not_faulted _ _ hr.1]
  rfl

theorem exec_rdhex_index {j : Byte} {s : State} (hr : s.ready) (hv : s.dvalid = true)
    (hj : 2 * s.dcnt.toNat ≤ j.toNat) : exec (.rdhex j) s = .next (trapped 7#4 (j.setWidth 32) s) := by
  rw [exec_rdhex_ready j hr, if_neg (ne_false_of_eq_true hv), if_pos hj, raise_of_not_faulted _ _ hr.1]
  rfl

theorem exec_rdhex_of_byte {j b : Byte} {s : State} (hr : s.ready) (hv : s.dvalid = true)
    (hj : j.toNat < 2 * s.dcnt.toNat) (hbyte : s.dig[j.toNat / 2]? = some b) :
    exec (.rdhex j) s = .next (answered ((hexCharacter j b).setWidth 32) s) := by
  rw [exec_rdhex_ready j hr, if_neg (ne_false_of_eq_true hv), if_neg (Nat.not_le.2 hj), readDigest, hbyte]
  rfl

/-- Settles O34: the digest's validity is checked first, then the index, and the digest holds exactly its counted
bytes. -/
theorem rdhexReadsTheCharacter : Obligations.RdhexReadsTheCharacter := by
  unfold Obligations.RdhexReadsTheCharacter
  refine ⟨encodedAs_aOperand fun _ _ => rfl, fun _ => needsBuffer_of_needsNoBuffer_eq_false rfl,
    fun j s hr => ⟨fun hinv hv hj => ?_, exec_rdhex_index hr, exec_rdhex_noDigest hr⟩⟩
  obtain ⟨-, -, hcount⟩ := hinv.storage
  have hbyte : s.dig[j.toNat / 2]? = some _ := List.getElem?_eq_getElem (by omega)
  refine ⟨_, hbyte, ?_⟩
  rw [← hexCharacter_eq_hexCodes]
  exact exec_rdhex_of_byte hr hv hj hbyte

end Sys2Proof.Machine
end

section
/-! SUPPORT. The system commands `NOP`, `INIT`, `RDSR` (spec/44_checksum_system.md R140 to R142), which every state accepts.
The settled obligations stand after the lemmas they need. -/

namespace Sys2Proof.Machine

/-! ### `NOP` -/

theorem exec_nop (s : State) : exec .nop s = .next (answered 0#32 s) := rfl

/-- Settles O17: `NOP` is its own rule, with no guard before it. -/
theorem nopDoesNothing : Obligations.NopDoesNothing := by
  unfold Obligations.NopDoesNothing
  exact ⟨encodedAs_noOperand fun _ _ => rfl, exec_nop⟩

/-! ### `INIT` -/

theorem exec_init_legal {n : Half} (h0 : 1 ≤ n.toNat) (hn : n.toNat ≤ 256) (s : State) :
    exec (.init n) s = .next (answered 0#32 (construct n s)) := by
  have hlegal : ¬(n.toNat = 0 ∨ n.toNat > nMax) := by unfold nMax; omega
  exact if_neg hlegal

theorem exec_init_illegal {n : Half} (h : n.toNat = 0 ∨ 256 < n.toNat) (s : State) :
    exec (.init n) s = raise .badN (n.setWidth 32) s := if_pos h

/-- A fresh computation keeps nothing of the registers before it (R141): they are those of reset but for the new buffer
and its size. -/
theorem construct_eq (n : Half) (s : State) :
    construct n s = { s with
      toArch := { Arch.reset with
        nreg := BitVec.ofNat 9 n.toNat, buf := identityBuffer n.toNat, initd := true } } := by
  rw [BitVec.ofNat_toNat]
  rfl

/-- Settles O18: the size is checked first, the effect is a fresh computation, and the other commands keep `NREG` and a
recorded fault as the registers' table says. -/
theorem initBeginsAFreshComputation : Obligations.InitBeginsAFreshComputation := by
  unfold Obligations.InitBeginsAFreshComputation
  refine ⟨encodedAs_immOperand fun _ _ => rfl, fun i s t hi h => ?_,
    fun n s => ⟨fun h0 hn => ⟨[], [], ?_⟩, fun hn hf => ?_, fun hn hf => ?_⟩⟩
  · obtain ⟨-, -, -, -, -, hsize, hfault⟩ := registersAreWrittenAsTabled i s t h
    refine ⟨(hsize hi).1, fun hf => ?_⟩
    rcases hfault hi with ⟨hkept, -⟩ | ⟨-, hentered, -⟩
    · exact hkept.trans hf
    · exact hentered
  · rw [exec_init_legal h0 hn, construct_eq]
    rfl
  · rw [exec_init_illegal hn, raise_of_not_faulted _ _ hf]
    rfl
  · rw [exec_init_illegal hn, raise_of_faulted _ _ hf]
    rfl

/-- Settles O53: an `INIT` that answers begins a fresh computation, which is no failure, or enters a fault, recorded if it
is the first. -/
theorem initFrame : Obligations.InitFrame := by
  unfold Obligations.InitFrame
  intro n s t h
  cases exec_effect h with
  | answers _ hreads => cases hreads
  | rejects | traps => exact ⟨rfl, fun _ _ _ => rfl⟩
  | init =>
    refine ⟨rfl, fun r hr herr => ?_⟩
    cases hr
    cases herr

/-! ### `RDSR` -/

theorem exec_rdsr_of_statusRegister {r : Byte} {s : State} {v : Word} (h : statusRegister s r.toNat = some v) :
    exec (.rdsr r) s = .next (answered v s) := by
  show execRdsr r s = _
  rw [execRdsr, h]
  rfl

theorem exec_rdsr_unlisted {r : Byte} (h : 12 ≤ r.toNat) (s : State) :
    exec (.rdsr r) s = raise .badSr (r.setWidth 32) s := by
  show execRdsr r s = _
  rw [execRdsr, (statusRegister_none_iff s r.toNat).2 h]

/-- Settles O19: each listed number is read from its row of R33, and the others have no row. -/
theorem rdsrReadsTheStatusRegisters : Obligations.RdsrReadsTheStatusRegisters := by
  unfold Obligations.RdsrReadsTheStatusRegisters
  refine ⟨encodedAs_aOperand fun _ _ => rfl, fun s => ?_⟩
  have hread {r : Byte} {v : Word} (h : statusRegister s r.toNat = some v) := exec_rdsr_of_statusRegister h
  refine ⟨hread rfl, hread rfl, hread rfl, hread rfl, hread rfl, hread rfl, hread rfl, hread rfl, hread rfl, hread rfl,
    hread rfl, hread rfl, fun r hr hf => ?_, fun r hr hf => ?_⟩
  · rw [exec_rdsr_unlisted hr, raise_of_not_faulted _ _ hf]
    rfl
  · rw [exec_rdsr_unlisted hr, raise_of_faulted _ _ hf]
    rfl

end Sys2Proof.Machine
end

section
/-! SUPPORT. The simple checksum `CKSUM` (spec/44_checksum_system.md R143): the buffer's entries are distinct values below
`N`, so the product of two of them fits the response. The settled obligation stands at the end. -/

namespace Sys2Proof.Machine

/-! ### Entries of the buffer (R36 item 2) -/

theorem toNat_lt_of_mem_identityBuffer {n : Nat} {x : Byte} (h : x ∈ identityBuffer n) : x.toNat < n := by
  obtain ⟨i, hi, rfl⟩ := List.mem_map.1 h
  rw [BitVec.toNat_ofNat]
  exact (Nat.mod_le ..).trans_lt (List.mem_range.1 hi)

/-- Below 256 distinct numbers are distinct bytes. -/
theorem identityBuffer_nodup {n : Nat} (hn : n ≤ nMax) : (identityBuffer n).Nodup := by
  unfold nMax at hn
  refine List.Nodup.map_on (fun i hi j hj h => ?_) List.nodup_range
  have hi' := List.mem_range.1 hi
  have hj' := List.mem_range.1 hj
  have h' := congrArg BitVec.toNat h
  rw [BitVec.toNat_ofNat, BitVec.toNat_ofNat] at h'
  omega

theorem toNat_lt_of_buf_get {s : State} {i : Nat} {x : Byte} (h : s.Inv) (hx : s.buf[i]? = some x) :
    x.toNat < bufSize s := by
  obtain ⟨-, -, hperm, -⟩ := h.buffer
  exact toNat_lt_of_mem_identityBuffer (hperm.mem_iff.1 (List.mem_of_getElem? hx))

theorem buf_nodup {s : State} (h : s.Inv) : s.buf.Nodup := by
  obtain ⟨-, hsize, hperm, -⟩ := h.buffer
  exact hperm.nodup_iff.2 (identityBuffer_nodup hsize)

/-! ### The product -/

/-- Of two distinct bytes one is at most 254, the other at most 255. -/
theorem mul_toNat_le_of_ne {x y : Byte} (h : x ≠ y) : x.toNat * y.toNat ≤ 64770 := by
  have hne : x.toNat ≠ y.toNat := fun he => h (BitVec.eq_of_toNat_eq he)
  have hx := x.isLt
  have hy := y.isLt
  rcases Nat.lt_or_gt_of_ne hne with hlt | hlt
  · exact Nat.mul_le_mul (show x.toNat ≤ 254 by omega) (show y.toNat ≤ 255 by omega)
  · exact Nat.mul_le_mul (show x.toNat ≤ 255 by omega) (show y.toNat ≤ 254 by omega)

/-- The product is exact (R14): no width is too small for it. -/
theorem product_toNat (x y : Byte) : (product x y).toNat = x.toNat * y.toNat := by
  have hle : x.toNat * y.toNat ≤ 255 * 255 :=
    Nat.mul_le_mul (Nat.le_of_lt_succ x.isLt) (Nat.le_of_lt_succ y.isLt)
  exact Nat.mod_eq_of_lt (by omega)

/-! ### The command -/

theorem exec_cksum_index {s : State} (hr : s.ready) (h : bufSize s < 2) :
    exec .cksum s = .next (trapped 7#4 1#32 s) := by
  rw [exec_cksum_ready hr, if_pos h, raise_of_not_faulted _ _ hr.1]
  rfl

theorem exec_cksum_of_entries {s : State} {x y : Byte} (hr : s.ready) (h : 2 ≤ bufSize s) (hx : s.buf[0]? = some x)
    (hy : s.buf[1]? = some y) : exec .cksum s = .next (answered (product x y) s) := by
  rw [exec_cksum_ready hr, if_neg (Nat.not_lt.2 h), readBuf, readBuf, hx, hy]
  rfl

/-- Settles O35: the buffer holds exactly `N` entries, each a value below `N`, no two alike. -/
theorem cksumMultipliesTheFirstTwo : Obligations.CksumMultipliesTheFirstTwo := by
  unfold Obligations.CksumMultipliesTheFirstTwo
  refine ⟨encodedAs_noOperand fun _ _ => rfl, needsBuffer_of_needsNoBuffer_eq_false rfl,
    fun s hr => ⟨fun hinv hsize => ?_, exec_cksum_index hr⟩⟩
  obtain ⟨hbuf, -, -⟩ := hinv.storage
  have hx : s.buf[0]? = some s.buf[0] := List.getElem?_eq_getElem (by omega)
  have hy : s.buf[1]? = some s.buf[1] := List.getElem?_eq_getElem (by omega)
  have hne : s.buf[0] ≠ s.buf[1] := fun h => Nat.zero_ne_one ((buf_nodup hinv).getElem_inj_iff.1 h)
  have hproduct := product_toNat s.buf[0] s.buf[1]
  exact ⟨_, _, _, hx, hy, hne, toNat_lt_of_buf_get hinv hx, toNat_lt_of_buf_get hinv hy, hproduct,
    hproduct.trans_le (mul_toNat_le_of_ne hne), exec_cksum_of_entries hr hsize hx hy⟩

end Sys2Proof.Machine
end

section
/-! SUPPORT. The faults (spec/60_exceptions.md): the two causes raised by the decode order, `E_ILLEGAL` (R151) and
`E_NOINIT` (R152), what a recorded fault freezes (R160, R164, R167), and the idle core (R176). The settled obligations
stand after the lemmas they need. -/

namespace Sys2Proof.Machine

/-! ### The idle core (R176, R78) -/

/-- Settles O10: a core with no response waiting is ready, and has none to transfer. -/
theorem idleCoreKeepsItsState : Obligations.IdleCoreKeepsItsState := by
  unfold Obligations.IdleCoreKeepsItsState
  intro s hrsp
  refine ⟨by simp [cmdReady, hrsp], by simp [rspValid, hrsp], step_no_action, fun rest hhost => ?_⟩
  have hrsp' : State.rsp { s with host := rest } = none := hrsp
  rw [step_takeResponse hhost, transferResponse_none hrsp']

/-! ### Illegal words (R151) -/

/-- A word that no row of the opcode map hits decodes to no command, so executing it raises `E_ILLEGAL`. -/
theorem execWord_of_no_row {w : Word} (h : ∀ r ∈ opcodeRows, r.hits w = false) (s : State) :
    execWord w s = raise .illegal w s := by
  rcases execWord_cases w s with ⟨i, hi, -⟩ | ⟨_, -, e⟩
  · obtain ⟨-, hrows, -⟩ := decoderAgreesWithOpcodeMap w
    obtain ⟨r, hr, hit⟩ := hrows.1 ⟨i, hi⟩
    rw [h r hr] at hit
    cases hit
  · exact e

/-- Settles O8: the word raises `E_ILLEGAL`, and fault entry does the rest. -/
theorem illegalWordFaults : Obligations.IllegalWordFaults := by
  unfold Obligations.IllegalWordFaults
  intro w s h
  rw [execWord_of_no_row h]
  exact ⟨raise_of_not_faulted .illegal w, raise_of_faulted .illegal w⟩

/-! ### Commands before the first `INIT` (R152) -/

theorem errorResponse_ne_noInit {c : Cause} (h : c ≠ .noInit) : errorResponse c ≠ ⟨true, 2#32⟩ := by
  cases c with
  | noInit => exact absurd rfl h
  | _ => decide

/-- The command completes and does not answer `E_NOINIT`: what R152 asks of the commands that need no buffer. -/
def CompletesWithoutNoInit (r : Result) : Prop := ∃ t, r = .next t ∧ t.rsp ≠ some ⟨true, 2#32⟩

theorem respond_completes (v : Word) (s : State) : CompletesWithoutNoInit (respond v s) :=
  ⟨_, rfl, nofun⟩

theorem raise_completes {c : Cause} (h : c ≠ .noInit) (info : Word) (s : State) :
    CompletesWithoutNoInit (raise c info s) :=
  ⟨_, rfl, fun hr => errorResponse_ne_noInit h (Option.some.inj ((faultEntry_rsp c info s).symm.trans hr))⟩

theorem exec_init_completes (n : Half) (s : State) : CompletesWithoutNoInit (exec (.init n) s) := by
  by_cases h : n.toNat = 0 ∨ 256 < n.toNat
  · rw [exec_init_illegal h]; exact raise_completes (by decide) _ s
  · rw [exec_init_legal (by omega) (by omega)]; exact respond_completes 0#32 (construct n s)

theorem exec_rdsr_completes (r : Byte) (s : State) : CompletesWithoutNoInit (exec (.rdsr r) s) := by
  cases h : statusRegister s r.toNat with
  | some v => rw [exec_rdsr_of_statusRegister h]; exact respond_completes v s
  | none =>
    rw [exec_rdsr_unlisted ((statusRegister_none_iff s r.toNat).1 h)]
    exact raise_completes (by decide) _ s

theorem exec_hexd_completes (x : Half) {s : State} (hf : s.fault = false) :
    CompletesWithoutNoInit (exec (.hexd x) s) := by
  rw [exec_hexd_ok x hf]
  cases unhex2 (firstChar x) (secondChar x) with
  | some b => exact respond_completes _ s
  | none => exact raise_completes (by decide) _ s

/-- Settles O15: a command behind step 3 of the decode order stops there; each of the other five completes by its own
rule, which knows no `E_NOINIT`. -/
theorem commandWithoutBufferFaults : Obligations.CommandWithoutBufferFaults := by
  unfold Obligations.CommandWithoutBufferFaults
  intro i s hf hinitd
  refine ⟨fun hi => ?_, fun hi => show CompletesWithoutNoInit (exec i s) from ?_⟩
  · obtain ⟨-, hnoInit⟩ := needsBuffer_of_needsNoBuffer_eq_false hi
    exact hnoInit s hf hinitd
  · cases i with
    | nop => exact respond_completes 0#32 s
    | init n => exact exec_init_completes n s
    | rdsr r => exact exec_rdsr_completes r s
    | hexb b => rw [exec_hexb_ok b hf]; exact respond_completes _ s
    | hexd x => exact exec_hexd_completes x hf
    | _ => cases hi

/-! ### What a recorded fault freezes (R160, R164, R167) -/

/-- On a faulted core a command only answers, is refused, or is an `INIT` of a legal size: the other effects are those
of a core with no fault recorded. -/
theorem exec_faulted_toArch {i : Instr} {s t : State} (hf : s.fault = true) (h : exec i s = .next t) :
    t.toArch = s.toArch ∨ ∃ n, i = .init n ∧ 1 ≤ n.toNat ∧ n.toNat ≤ 256 := by
  have hnotReady : ¬ s.ready := fun ⟨hunfaulted, _⟩ => by rw [hf] at hunfaulted; cases hunfaulted
  cases exec_effect h with
  | answers | rejects => exact .inl rfl
  | traps c info hunfaulted => rw [hf] at hunfaulted; cases hunfaulted
  | init h0 hn => exact .inr ⟨_, rfl, Nat.one_le_iff_ne_zero.2 h0, hn⟩
  | rev hr | lclr hr | lpush hr | step hr | run hr | reduce hr => exact absurd hr hnotReady

/-- An illegal word changes no register of a faulted core either: the first fault is kept (R160). -/
theorem execWord_faulted_toArch {w : Word} {s t : State} (hf : s.fault = true) (h : execWord w s = .next t) :
    t.toArch = s.toArch ∨ ∃ n, decode w = .ok (.init n) ∧ 1 ≤ n.toNat ∧ n.toNat ≤ 256 := by
  rcases execWord_cases w s with ⟨i, hi, e⟩ | ⟨_, -, e⟩ <;> rw [e] at h
  · rcases exec_faulted_toArch hf h with hkept | ⟨n, rfl, hn⟩
    · exact .inl hkept
    · exact .inr ⟨n, hi, hn⟩
  · rw [faultEntry_of_faulted _ _ hf] at h
    cases h
    exact .inl rfl

/-- Settles O13: fault entry by whether a fault is recorded, and the fault registers are among the frozen ones. -/
theorem faultEntryRecordsTheFirstFault : Obligations.FaultEntryRecordsTheFirstFault := by
  unfold Obligations.FaultEntryRecordsTheFirstFault
  refine ⟨fun c info s => ⟨raise_of_not_faulted c info, raise_of_faulted c info⟩, fun _ => rfl, fun w s t hf h => ?_⟩
  refine (execWord_faulted_toArch hf h).imp_left fun hkept => ?_
  exact ⟨(congrArg Arch.fault hkept).trans hf, congrArg Arch.cause hkept, congrArg Arch.finfo hkept⟩

/-- Settles O16: of the five things a step can do, only reset and an executed word touch a register, and a faulted core
executes no word that does but a legal `INIT`. -/
theorem faultedStateIsFrozen : Obligations.FaultedStateIsFrozen := by
  unfold Obligations.FaultedStateIsFrozen
  intro s t hf h
  rcases step_cases s with ⟨-, e⟩ | ⟨rest, hhost, -⟩ | ⟨rest, -, e⟩ | ⟨w, rest, r, -, -, e⟩ | ⟨w, rest, hhost, -, e⟩
  · rw [e] at h; cases h; exact .inl rfl
  · exact .inr (.inl ⟨rest, hhost⟩)
  · rw [e] at h; cases h; exact .inl (transferResponse_toArch _)
  · rw [e] at h; cases h; exact .inl (transferResponse_toArch s)
  · rw [e] at h
    rcases execWord_faulted_toArch (s := { s with host := rest }) hf h with hkept | ⟨n, hi, hn⟩
    · exact .inl hkept
    · exact .inr (.inr ⟨w, rest, n, hhost, hi, hn⟩)

/-! ### The code that is never recorded (R164) -/

theorem causeCode_ne_faulted {c : Cause} (h : c ≠ .faulted) : causeCode c ≠ 13#4 := by
  have hle := causeCode_recordable h
  intro he
  rw [he] at hle
  exact absurd hle (by decide)

theorem faultEntry_cause_ne_faulted {c : Cause} {s : State} (info : Word) (hc : c ≠ .faulted) (hs : s.cause ≠ 13#4) :
    (faultEntry c info s).cause ≠ 13#4 := by
  cases hf : s.fault with
  | true => rw [faultEntry_of_faulted c info hf]; exact hs
  | false => rw [faultEntry_of_not_faulted c info hf]; exact causeCode_ne_faulted hc

theorem stepLen_cause {l : Half} {s t : State} (h : stepLen l s = .goOn t) : t.cause = s.cause := by
  obtain ⟨b, -, -, -, rfl⟩ := stepLen_goOn_iff.1 h
  rfl

theorem cause_ne_faulted_passKeeps : PassKeeps fun s => s.cause ≠ 13#4 where
  step _ _ _ hstep hs := (stepLen_cause hstep).trans_ne hs
  move _ _ _ hs := hs

theorem exec_cause_ne_faulted {i : Instr} {s t : State} (hs : s.cause ≠ 13#4) (h : exec i s = .next t) :
    t.cause ≠ 13#4 := by
  cases exec_effect h with
  | answers | rejects | rev | lclr | lpush | reduce => exact hs
  | traps c info _ hc => exact causeCode_ne_faulted hc
  | init => exact (construct_cause _ s).trans_ne (by decide)
  | step _ hstep => exact (stepLen_cause hstep).trans_ne hs
  | run _ hrun =>
    rcases run_cases cause_ne_faulted_passKeeps hs hrun with ⟨u, hu, -, rfl⟩ | ⟨c, info, u, l, hc, hu, -, rfl⟩
    · exact hu
    · exact faultEntry_cause_ne_faulted info hc hu

theorem execWord_cause_ne_faulted {w : Word} {s t : State} (hs : s.cause ≠ 13#4) (h : execWord w s = .next t) :
    t.cause ≠ 13#4 := by
  rcases execWord_cases w s with ⟨i, -, e⟩ | ⟨_, -, e⟩ <;> rw [e] at h
  · exact exec_cause_ne_faulted hs h
  · cases h
    exact faultEntry_cause_ne_faulted w (by decide) hs

/-- Settles O14: the refusal stands at step 2 of the decode order, it changes no register, and no fault entry has its
code. -/
theorem faultedCoreRefuses : Obligations.FaultedCoreRefuses := by
  unfold Obligations.FaultedCoreRefuses
  exact ⟨fun _ => refusedWhileFaulted_of_acceptedWhileFaulted_eq_false,
    fun _ _ _ => execWord_faulted_toArch, fun _ _ _ => execWord_cause_ne_faulted⟩

end Sys2Proof.Machine
end

section
/-! SUPPORT. The core never stops (spec/70_reset_and_hazards.md R189): from a state with the invariants of R36 every
command completes, since the storage holds the entries that its counters cover and `Reverse` is used on its domain only.
The settled obligation stands at the end. -/

namespace Sys2Proof.Machine

/-- The command ends in a next state: the model does not stop. -/
def Completes (r : Result) : Prop := ∃ t, r = .next t

theorem respond_ends (v : Word) (s : State) : Completes (respond v s) := ⟨_, rfl⟩

theorem raise_ends (c : Cause) (info : Word) (s : State) : Completes (raise c info s) := ⟨_, rfl⟩

/-- A check of the spec: the fault it raises completes, so the rule behind it has to. -/
theorem check_ends {p : Prop} [Decidable p] {c : Cause} {info : Word} {s : State} {body : Result}
    (h : ¬p → Completes body) : Completes (if p then raise c info s else body) := by
  split
  · exact raise_ends c info s
  · exact h ‹_›

theorem CompletesWithoutNoInit.completes {r : Result} (h : CompletesWithoutNoInit r) : Completes r := by
  obtain ⟨t, ht, -⟩ := h
  exact ⟨t, ht⟩

/-! ### Commands that read the storage -/

/-- A read of an entry that the storage holds completes (R55). -/
theorem respondEntry_ends {w : Nat} {entries : List (BitVec w)} {i : Nat} (h : i < entries.length) (s : State) :
    Completes (respondEntry entries[i]? s) := by
  rw [List.getElem?_eq_getElem h]
  exact respond_ends _ s

theorem exec_rdbuf_completes (i : Byte) {s : State} (h : s.Inv) (hr : s.ready) : Completes (exec (.rdbuf i) s) := by
  obtain ⟨hbuf, -, -⟩ := h.storage
  rw [exec_rdbuf_ready i hr]
  exact check_ends fun hi => respondEntry_ends (by omega) s

theorem exec_rdll_completes (j : Half) {s : State} (h : s.Inv) (hr : s.ready) : Completes (exec (.rdll j) s) := by
  obtain ⟨-, hlist, -⟩ := h.storage
  rw [exec_rdll_ready j hr]
  exact check_ends fun hj => respondEntry_ends (by omega) s

theorem exec_rddig_completes (i : Byte) {s : State} (h : s.Inv) (hr : s.ready) : Completes (exec (.rddig i) s) := by
  obtain ⟨-, -, hdigest⟩ := h.storage
  rw [exec_rddig_ready i hr]
  exact check_ends fun _ => check_ends fun hi => respondEntry_ends (by omega) s

theorem exec_rdhex_completes (j : Byte) {s : State} (h : s.Inv) (hr : s.ready) : Completes (exec (.rdhex j) s) := by
  obtain ⟨-, -, hdigest⟩ := h.storage
  rw [exec_rdhex_ready j hr]
  refine check_ends fun _ => check_ends fun hj => ?_
  rw [readDigest, List.getElem?_eq_getElem (by omega)]
  exact respond_ends _ s

theorem exec_cksum_completes {s : State} (h : s.Inv) (hr : s.ready) : Completes (exec .cksum s) := by
  obtain ⟨hbuf, -, -⟩ := h.storage
  rw [exec_cksum_ready hr]
  refine check_ends fun hsize => ?_
  rw [readBuf, readBuf, List.getElem?_eq_getElem (by omega), List.getElem?_eq_getElem (by omega)]
  exact respond_ends _ s

/-! ### Commands that write the storage -/

theorem exec_rev_completes (c : Byte) (l : Half) {s : State} (h : s.Inv) (hr : s.ready) :
    Completes (exec (.rev c l) s) := by
  obtain ⟨hbuf, -, -⟩ := h.storage
  rw [exec_rev_ready c l hr]
  refine check_ends fun hc => check_ends fun hl => ?_
  have hdomain : c.toNat < bufSize s ∧ l.toNat ≤ bufSize s ∧ s.buf.length = bufSize s :=
    ⟨Nat.not_le.1 hc, Nat.not_lt.1 hl, hbuf⟩
  obtain ⟨b, hb⟩ := Option.isSome_iff_exists.1 ((reverse_isSome_iff ..).2 hdomain)
  rw [hb]
  exact respond_ends _ _

theorem exec_reduce_completes {s : State} (h : s.Inv) (hr : s.ready) : Completes (exec .reduce s) := by
  obtain ⟨hbuf, -, -⟩ := h.storage
  rw [exec_reduce_ready hr]
  refine check_ends fun _ => ?_
  rw [if_neg (not_not.2 hbuf)]
  exact respond_ends _ _

theorem exec_lpush_completes (l : Half) {s : State} (hr : s.ready) : Completes (exec (.lpush l) s) := by
  rw [exec_lpush_ready l hr]
  exact check_ends fun _ => respond_ends _ _

theorem exec_step_completes (l : Half) {s : State} (h : s.Inv) (hr : s.ready) : Completes (exec (.step l) s) := by
  obtain ⟨t, ht, -⟩ := exec_step_progress l h hr.2
  exact ⟨t, ht⟩

theorem exec_run_completes (r : Half) {s : State} (h : s.Inv) (hr : s.ready) : Completes (exec (.run r) s) := by
  obtain ⟨t, ht, -⟩ := exec_run_progress r h hr.2
  exact ⟨t, ht⟩

/-! ### Every command -/

/-- The commands that need a buffer complete where there is one. -/
theorem exec_ready_completes {i : Instr} {s : State} (h : s.Inv) (hr : s.ready) (hi : needsNoBuffer i = false) :
    Completes (exec i s) := by
  cases i with
  | rev c l => exact exec_rev_completes c l h hr
  | rdbuf i => exact exec_rdbuf_completes i h hr
  | lclr => exact ⟨_, exec_lclr_ready hr⟩
  | lpush l => exact exec_lpush_completes l hr
  | rdll j => exact exec_rdll_completes j h hr
  | step l => exact exec_step_completes l h hr
  | run r => exact exec_run_completes r h hr
  | reduce => exact exec_reduce_completes h hr
  | rddig i => exact exec_rddig_completes i h hr
  | rdhex j => exact exec_rdhex_completes j h hr
  | cksum => exact exec_cksum_completes h hr
  | nop | init | rdsr | hexb | hexd => cases hi

/-- The commands that are accepted while a fault is recorded complete in every state. -/
theorem exec_accepted_completes {i : Instr} (hi : acceptedWhileFaulted i = true) (s : State) :
    Completes (exec i s) := by
  cases i with
  | nop => exact ⟨_, exec_nop s⟩
  | init n => exact (exec_init_completes n s).completes
  | rdsr r => exact (exec_rdsr_completes r s).completes
  | _ => cases hi

/-- The commands that need no buffer complete where no fault is recorded. -/
theorem exec_bufferless_completes {i : Instr} {s : State} (hf : s.fault = false) (hi : needsNoBuffer i = true) :
    Completes (exec i s) := by
  cases i with
  | nop | init | rdsr => exact exec_accepted_completes rfl s
  | hexb b => exact ⟨_, exec_hexb_ok b hf⟩
  | hexd x => exact (exec_hexd_completes x hf).completes
  | _ => cases hi

/-- Every command completes: refused while a fault is recorded, with `E_NOINIT` where a buffer is missing, and by its own
rule otherwise (R75). -/
theorem exec_completes (i : Instr) {s : State} (h : s.Inv) : Completes (exec i s) := by
  cases hf : s.fault with
  | true =>
    cases hi : acceptedWhileFaulted i with
    | true => exact exec_accepted_completes hi s
    | false => exact ⟨_, refusedWhileFaulted_of_acceptedWhileFaulted_eq_false hi s hf⟩
  | false =>
    cases hi : needsNoBuffer i with
    | true => exact exec_bufferless_completes hf hi
    | false =>
      cases hinitd : s.initd with
      | true => exact exec_ready_completes h ⟨hf, hinitd⟩ hi
      | false => exact ⟨_, (needsBuffer_of_needsNoBuffer_eq_false hi).2 s hf hinitd⟩

/-- Every word is answered, an illegal one by `E_ILLEGAL` (R75, R76). -/
theorem execWord_answers (w : Word) {s : State} (h : s.Inv) : ∃ t r, execWord w s = .next t ∧ t.rsp = some r := by
  rcases execWord_cases w s with ⟨i, -, e⟩ | ⟨_, -, e⟩
  · obtain ⟨t, ht⟩ := exec_completes i h
    obtain ⟨r, hr, -⟩ := everyCommandAnswersOnce i s t ht
    exact ⟨t, r, e.trans ht, hr⟩
  · exact ⟨_, _, e, faultEntry_rsp .illegal w s⟩

/-- Settles O43: of the five things a step can do only the execution of a word could stop the model, and every word is
answered. -/
theorem everyCommandIsAnswered : Obligations.EveryCommandIsAnswered := by
  unfold Obligations.EveryCommandIsAnswered
  intro s h
  have hhost (rest : List HostEvent) : State.Inv { s with host := rest } := inv_of_same_registers h rfl rfl
  refine ⟨?_, fun w rest hrsp hcommand => ?_⟩
  · rcases step_cases s with ⟨-, e⟩ | ⟨rest, -, e⟩ | ⟨rest, -, e⟩ | ⟨w, rest, r, -, -, e⟩ | ⟨w, rest, -, -, e⟩
    · exact ⟨_, e⟩
    · exact ⟨_, e⟩
    · exact ⟨_, e⟩
    · exact ⟨_, e⟩
    · obtain ⟨t, -, ht, -⟩ := execWord_answers w (hhost rest)
      exact ⟨t, e.trans ht⟩
  · obtain ⟨t, r, ht, hr⟩ := execWord_answers w (hhost rest)
    obtain ⟨-, hrest, hdelivered⟩ := execWord_ports ht
    exact ⟨t, r, (step_command_idle hrsp hcommand).trans ht, hr, hrest, hdelivered⟩

end Sys2Proof.Machine
end

section
/-! SUPPORT. No digest outlives a command that may change the buffer (spec/70_reset_and_hazards.md R186,
spec/10_state.md R29). -/

namespace Sys2Proof.Machine

/-- A `RUN` past the decode order drops the digest before its first step, and no step brings one back (R108). -/
theorem run_dropsDigest {k : Nat} {s t : State} (hf : s.fault = false)
    (h : finish (runRounds k (startOfRun s)) = .next t) : t.dvalid = false ∧ t.dcnt = 0#5 := by
  obtain ⟨_, ⟨_, _, _, _, _, rfl⟩, rfl | ⟨code, info, rfl⟩⟩ := run_moved hf h <;> exact ⟨rfl, rfl⟩

theorem onlyReads_eq_false_of_writesBuffer {i : Instr} (h : writesBuffer i = true) : onlyReads i = false := by
  cases i with
  | init | rev | step | run => rfl
  | _ => cases h

/-- Settles O54: a success is the command's own effect, which begins by dropping the digest. -/
theorem bufferWritersDropTheDigest : Obligations.BufferWritersDropTheDigest := by
  unfold Obligations.BufferWritersDropTheDigest
  refine ⟨fun i s t r hi hexec hrsp hok => ?_, fun n s t hr hexec => ?_⟩
  · cases exec_effect hexec with
    | rejects | traps => cases hrsp; cases hok
    | init | rev => exact ⟨rfl, rfl⟩
    | step _ hstep =>
      obtain ⟨b, -, -, -, rfl⟩ := stepLen_goOn_iff.1 hstep
      exact ⟨rfl, rfl⟩
    | run hr hrun => exact run_dropsDigest hr.1 hrun
    | answers _ hreads =>
      rw [onlyReads_eq_false_of_writesBuffer hi] at hreads
      cases hreads
    | lclr | lpush | reduce => cases hi
  · rw [exec_run_ready n hr] at hexec
    exact run_dropsDigest hr.1 hexec

end Sys2Proof.Machine
end

section
/-! SUPPORT. Runs (spec/70_reset_and_hazards.md R191): every word of a run from a state with the invariants is answered,
runs compose, and a run with no fault recorded at its start succeeds exactly when none is recorded along it. -/

namespace Sys2Proof.Machine

/-! ### The start of a run -/

/-- The registers in which a run starts are those of reset or of a fresh computation, which have the invariants. -/
theorem startsRun_inv {s : State} (h : startsRun s) : s.Inv := by
  obtain ⟨-, hreset | ⟨n, u, h0, hn, hfresh⟩⟩ := h
  · exact inv_of_same_registers (hostReset_inv s) hreset rfl
  · have hinv : (construct n s).Inv := construct_inv (Nat.one_le_iff_ne_zero.1 h0) hn s
    exact inv_of_same_registers hinv hfresh rfl

theorem startsRun_fault {s : State} (h : startsRun s) : s.fault = false := by
  obtain ⟨-, hreset | ⟨n, u, -, -, hfresh⟩⟩ := h
  · exact congrArg Arch.fault hreset
  · exact congrArg Arch.fault hfresh

/-! ### Results of runs -/

/-- A word handed over in a state with the invariants is answered, and leaves them in an idle core. -/
theorem handOver_answers (w : Word) {s : State} (h : s.Inv) :
    ∃ r u, handOver w s = some (r, u) ∧ u.Inv ∧ u.rsp = none := by
  obtain ⟨t, r, ht, hr⟩ := execWord_answers w h
  exact ⟨r, _, handOver_eq_some.2 ⟨t, ht, hr, rfl⟩, transferResponse_inv (execWord_inv h ht), transferResponse_rsp t⟩

/-- Induction over the words of a run. -/
theorem runWords_result (words : List Word) {s : State} (h : s.Inv) (hrsp : s.rsp = none) :
    ∃ x, runWords words s = some x ∧ x.responses.length = words.length ∧ x.final.Inv ∧ x.final.rsp = none := by
  induction words generalizing s with
  | nil => exact ⟨_, rfl, rfl, h, hrsp⟩
  | cons w words ih =>
    obtain ⟨r, u, hhand, hu, hidle⟩ := handOver_answers w h
    obtain ⟨x, hx, hlength, hfinal⟩ := ih hu hidle
    exact ⟨_, runWords_cons_eq_some.2 ⟨r, u, x, hhand, hx, rfl⟩, congrArg (· + 1) hlength, hfinal⟩

/-- Induction over the words of the first run. -/
theorem runWords_append {a b : List Word} {s : State} {x y : RunResult} (hx : runWords a s = some x)
    (hy : runWords b x.final = some y) : runWords (a ++ b) s = some ⟨x.responses ++ y.responses, y.final⟩ := by
  induction a generalizing s x with
  | nil => cases hx; exact hy
  | cons w a ih =>
    obtain ⟨r, u, z, hhand, hz, rfl⟩ := runWords_cons_eq_some.1 hx
    exact runWords_cons_eq_some.2 ⟨r, u, ⟨z.responses ++ y.responses, y.final⟩, hhand, ih hz hy, rfl⟩

/-- Settles O56: the words of a run are taken one by one. -/
theorem everyRunHasItsResult : Obligations.EveryRunHasItsResult := by
  unfold Obligations.EveryRunHasItsResult
  exact ⟨fun s h => ⟨startsRun_inv h, startsRun_fault h, h.1⟩, fun words _ => runWords_result words,
    fun _ _ _ _ _ => runWords_append⟩

/-! ### Success of a run -/

/-- Where no fault was recorded a failure is the entry of a fault, and only a failure records one (R160). -/
theorem exec_err_eq_fault {i : Instr} {s t : State} {r : Response} (hf : s.fault = false) (h : exec i s = .next t)
    (hr : t.rsp = some r) : r.err = t.fault := by
  cases exec_effect h with
  | answers | rev | lclr | lpush | reduce => cases hr; exact hf.symm
  | rejects _ hfaulted => rw [hf] at hfaulted; cases hfaulted
  | traps | init => cases hr; rfl
  | step _ hstep =>
    obtain ⟨b, -, -, -, rfl⟩ := stepLen_goOn_iff.1 hstep
    cases hr
    exact hf.symm
  | run _ hrun =>
    obtain ⟨_, ⟨_, _, _, _, _, rfl⟩, rfl | ⟨code, info, rfl⟩⟩ := run_moved hf hrun <;> cases hr
    · exact hf.symm
    · rfl

theorem execWord_err_eq_fault {w : Word} {s t : State} {r : Response} (hf : s.fault = false)
    (h : execWord w s = .next t) (hr : t.rsp = some r) : r.err = t.fault := by
  rcases execWord_cases w s with ⟨i, -, e⟩ | ⟨_, -, e⟩ <;> rw [e] at h
  · exact exec_err_eq_fault hf h hr
  · cases h
    rw [faultEntry_rsp] at hr
    cases hr
    exact (faultEntry_fault ..).symm

theorem handOver_err_eq_fault {w : Word} {s u : State} {r : Response} (hf : s.fault = false)
    (h : handOver w s = some (r, u)) : r.err = u.fault := by
  obtain ⟨t, ht, hr, rfl⟩ := handOver_eq_some.1 h
  rw [transferResponse_toArch]
  exact execWord_err_eq_fault hf ht hr

/-- No fault is recorded after any part of the run, from none of its words to all. -/
def NeverFaults (words : List Word) (s : State) : Prop :=
  ∀ (k : Nat) (y : RunResult), runWords (words.take k) s = some y → y.final.fault = false

theorem neverFaults_nil {s : State} : NeverFaults [] s ↔ s.fault = false := by
  constructor
  · intro h
    exact h 0 _ rfl
  · intro hf k y hy
    rw [List.take_nil] at hy
    cases hy
    exact hf

/-- The parts of a run of at least one word are the empty one, and the word with the parts of the run of the others. -/
theorem neverFaults_cons {w : Word} {words : List Word} {s u : State} {r : Response}
    (h : handOver w s = some (r, u)) : NeverFaults (w :: words) s ↔ s.fault = false ∧ NeverFaults words u := by
  constructor
  · intro hall
    exact ⟨hall 0 _ rfl, fun k y hy =>
      hall (k + 1) ⟨r :: y.responses, y.final⟩ (runWords_cons_eq_some.2 ⟨r, u, y, h, hy, rfl⟩)⟩
  · rintro ⟨hf, hall⟩ (_ | k) y hy
    · cases hy; exact hf
    · obtain ⟨r', u', z, h', hz, rfl⟩ := runWords_cons_eq_some.1 hy
      cases h.symm.trans h'
      exact hall k z hz

theorem NeverFaults.start {words : List Word} {s : State} (h : NeverFaults words s) : s.fault = false := h 0 _ rfl

theorem runSucceeded_cons (r : Response) (x : RunResult) :
    runSucceeded ⟨r :: x.responses, x.final⟩ = true ↔ r.err = false ∧ runSucceeded x = true := by
  simp [runSucceeded]

/-- Induction over the words: a word succeeds exactly when it records no fault, and then the others start with none. -/
theorem runSucceeded_iff_neverFaults {words : List Word} {s : State} {x : RunResult} (hf : s.fault = false)
    (hx : runWords words s = some x) : runSucceeded x = true ↔ NeverFaults words s := by
  induction words generalizing s x with
  | nil =>
    cases hx
    rw [neverFaults_nil]
    exact ⟨fun _ => hf, fun _ => rfl⟩
  | cons w words ih =>
    obtain ⟨r, u, y, hhand, hy, rfl⟩ := runWords_cons_eq_some.1 hx
    rw [runSucceeded_cons, handOver_err_eq_fault hf hhand, neverFaults_cons hhand]
    constructor
    · rintro ⟨hu, hsucc⟩
      exact ⟨hf, (ih hu hy).1 hsucc⟩
    · rintro ⟨-, hnever⟩
      exact ⟨hnever.start, (ih hnever.start hy).2 hnever⟩

/-- Settles O57: the whole run is one of its parts. -/
theorem runSucceedsWhenNoFaultIsRecorded : Obligations.RunSucceedsWhenNoFaultIsRecorded := by
  unfold Obligations.RunSucceedsWhenNoFaultIsRecorded
  intro words s x hf hx
  have hiff := runSucceeded_iff_neverFaults hf hx
  refine ⟨hiff, fun hfinal => Bool.eq_false_iff.2 fun hsucc => ?_⟩
  have hunfaulted := hiff.1 hsucc words.length x (by rwa [List.take_length])
  rw [hunfaulted] at hfinal
  cases hfinal

end Sys2Proof.Machine
end

section
/-! SUPPORT. The steps that take the host's actions give the result of the run that the actions are
(spec/70_reset_and_hazards.md R190, R191). The run is computed from a state whose ports no step has touched, so the two
are compared by what a command reads: the registers and the depth. -/

namespace Sys2Proof.Machine

/-! ### Runs and the ports -/

/-- The two states have the same registers and depth: all that a command reads (R35). -/
def SameCore (u s : State) : Prop := u.toArch = s.toArch ∧ u.config = s.config

theorem SameCore.symm {u s : State} (h : SameCore u s) : SameCore s u := ⟨h.1.symm, h.2.symm⟩

theorem SameCore.trans {u v w : State} (h : SameCore u v) (h' : SameCore v w) : SameCore u w :=
  ⟨h.1.trans h'.1, h.2.trans h'.2⟩

theorem sameCore_transferResponse (s : State) : SameCore (transferResponse s) s :=
  ⟨transferResponse_toArch s, transferResponse_config s⟩

theorem transferResponse_withHost (s : State) (rest : List HostEvent) :
    transferResponse { s with host := rest } = { transferResponse s with host := rest } := by
  obtain ⟨_, rsp, _, _, _⟩ := s
  cases rsp <;> rfl

theorem execWord_portBlind (w : Word) : PortBlind (execWord w) := by
  intro p s
  unfold execWord
  cases decode w with
  | ok i => exact exec_portBlind i p s
  | error _ => exact raise_portBlind .illegal w p s

theorem execWord_sameCore {w : Word} {s t u : State} (hc : SameCore u s) (h : execWord w s = .next t) :
    ∃ v, execWord w u = .next v ∧ SameCore v t ∧ v.rsp = t.rsp := by
  obtain ⟨ha, hconfig⟩ := hc
  have hu : execWord w u = resultAtPorts u (.next t) := by
    rw [← h, ← execWord_portBlind w u s, withPorts_eq_self ha hconfig]
  exact ⟨_, hu, ⟨rfl, rfl⟩, rfl⟩

theorem handOver_sameCore {w : Word} {s t u : State} {r : Response} (hc : SameCore u s)
    (h : handOver w s = some (r, t)) : ∃ v, handOver w u = some (r, v) ∧ SameCore v t := by
  obtain ⟨t', ht, hr, rfl⟩ := handOver_eq_some.1 h
  obtain ⟨v, hv, hvt, hrsp⟩ := execWord_sameCore hc ht
  exact ⟨transferResponse v, handOver_eq_some.2 ⟨v, hv, hrsp.trans hr, rfl⟩,
    (sameCore_transferResponse v).trans (hvt.trans (sameCore_transferResponse t').symm)⟩

/-- Induction over the words of the run. -/
theorem runWords_sameCore {words : List Word} {s u : State} {x : RunResult} (hc : SameCore u s)
    (h : runWords words s = some x) :
    ∃ y, runWords words u = some y ∧ y.responses = x.responses ∧ SameCore y.final x.final := by
  induction words generalizing s u x with
  | nil => cases h; exact ⟨_, rfl, rfl, hc⟩
  | cons w words ih =>
    obtain ⟨r, t, z, hhand, hz, rfl⟩ := runWords_cons_eq_some.1 h
    obtain ⟨v, hv, hvt⟩ := handOver_sameCore hc hhand
    obtain ⟨y, hy, hresponses, hfinal⟩ := ih hvt hz
    exact ⟨_, runWords_cons_eq_some.2 ⟨r, v, y, hv, hy, rfl⟩, congrArg (r :: ·) hresponses, hfinal⟩

/-! ### The steps of a run -/

/-- Finitely many steps from `v` take all of the host's actions and end idle, with the registers of the end of the run
`x` and its responses received after `received`. -/
def StepsGive (v : State) (received : List Response) (x : RunResult) : Prop :=
  ∃ k t, Host.Core.run core k v = .next t ∧ t.host = [] ∧ t.rsp = none ∧
    t.toArch = x.final.toArch ∧ t.delivered = received ++ x.responses

theorem StepsGive.of_step {u v : State} {received : List Response} {x : RunResult} (h : step u = .next v)
    (hv : StepsGive v received x) : StepsGive u received x := by
  obtain ⟨k, t, hrun, hend⟩ := hv
  exact ⟨k + 1, t, (core_run_succ h).trans hrun, hend⟩

/-- The claim for the host's actions `events`, idle core or not: a response that waits is transferred before the run of
their words begins, and counts as received. -/
def StepsRun (events : List HostEvent) : Prop :=
  ∀ (v : State) (words : List Word) (x : RunResult), v.host = events → runOf v.rsp.isSome events = some words →
    runWords words (transferResponse v) = some x → StepsGive v (transferResponse v).delivered x

/-- What is claimed for the actions that are left carries over to a run from a state with the same registers. -/
theorem StepsRun.of_sameCore {events : List HostEvent} (hsteps : StepsRun events) {u v : State} {words : List Word}
    {x : RunResult} (hhost : v.host = events) (hwords : runOf v.rsp.isSome events = some words)
    (hc : SameCore v u) (hx : runWords words u = some x) : StepsGive v (transferResponse v).delivered x := by
  obtain ⟨y, hy, hresponses, hfinal, -⟩ := runWords_sameCore ((sameCore_transferResponse v).trans hc) hx
  obtain ⟨k, t, hrun, hend, hidle, harch, hdelivered⟩ := hsteps v words y hhost hwords hy
  exact ⟨k, t, hrun, hend, hidle, harch.trans hfinal, hresponses ▸ hdelivered⟩

theorem stepsRun_nil : StepsRun [] := by
  intro v words x hhost hwords hx
  cases hrsp : v.rsp with
  | some r => rw [hrsp] at hwords; cases hwords
  | none =>
    rw [hrsp] at hwords
    cases hwords
    rw [transferResponse_none hrsp] at hx ⊢
    cases hx
    exact ⟨0, v, rfl, hhost, hrsp, rfl, (List.append_nil _).symm⟩

theorem stepsRun_takeResponse {rest : List HostEvent} (hsteps : StepsRun rest) :
    StepsRun (.takeResponse :: rest) := by
  intro v words x hhost hwords hx
  have hstep := step_takeResponse hhost
  rw [transferResponse_withHost] at hstep
  have hidle : State.rsp { transferResponse v with host := rest } = none := transferResponse_rsp v
  have hwords' : runOf (State.rsp { transferResponse v with host := rest }).isSome rest = some words := by
    rw [hidle]; exact hwords
  have hgive := hsteps.of_sameCore rfl hwords' (u := transferResponse v) ⟨rfl, rfl⟩ hx
  rw [transferResponse_none hidle] at hgive
  exact hgive.of_step hstep

/-- The response of the first word of a run, received before those of the others. -/
theorem StepsGive.cons {v : State} {received : List Response} {r : Response} {x : RunResult}
    (h : StepsGive v (received ++ [r]) x) : StepsGive v received ⟨r :: x.responses, x.final⟩ := by
  obtain ⟨k, t, hrun, hend, hidle, harch, hdelivered⟩ := h
  exact ⟨k, t, hrun, hend, hidle, harch, by rw [hdelivered, List.append_assoc]; rfl⟩

/-- An idle core takes the word at once; its response is transferred by the steps of the actions that are left. -/
theorem stepsGive_of_command {rest : List HostEvent} (hsteps : StepsRun rest) {w : Word} {words : List Word} {v : State}
    {x : RunResult} (hhost : v.host = .command w :: rest) (hidle : v.rsp = none) (hwords : runOf true rest = some words)
    (hx : runWords (w :: words) v = some x) : StepsGive v v.delivered x := by
  obtain ⟨r, u, y, hhand, hy, rfl⟩ := runWords_cons_eq_some.1 hx
  obtain ⟨t, ht, hr, rfl⟩ := handOver_eq_some.1 hhand
  have htaken : SameCore { v with host := rest } v := ⟨rfl, rfl⟩
  obtain ⟨t', ht', hcore, hr'⟩ := execWord_sameCore htaken ht
  obtain ⟨-, hhost', hdelivered⟩ := execWord_ports ht'
  rw [hr] at hr'
  have hwords' : runOf t'.rsp.isSome rest = some words := by rw [hr']; exact hwords
  have hgive := hsteps.of_sameCore hhost' hwords' (hcore.trans (sameCore_transferResponse t).symm) hy
  have hreceived : (transferResponse t').delivered = v.delivered ++ [r] := by
    rw [transferResponse_some hr', hdelivered]
  rw [hreceived] at hgive
  exact hgive.cons.of_step ((step_command_idle hidle hhost).trans ht')

theorem stepsRun_command {rest : List HostEvent} (hsteps : StepsRun rest) (w : Word) :
    StepsRun (.command w :: rest) := by
  intro v _ x hhost hwords hx
  obtain ⟨words, hrest, rfl⟩ := Option.map_eq_some_iff.1 hwords
  have hgive : StepsGive (transferResponse v) (transferResponse v).delivered x :=
    stepsGive_of_command hsteps ((transferResponse_host v).trans hhost) (transferResponse_rsp v) hrest hx
  cases hrsp : v.rsp with
  | none => rw [transferResponse_none hrsp] at hgive ⊢; exact hgive
  | some r => exact hgive.of_step (step_command_waiting hrsp hhost)

/-- Induction over the host's actions. -/
theorem stepsRun (events : List HostEvent) : StepsRun events := by
  induction events with
  | nil => exact stepsRun_nil
  | cons e rest ih =>
    cases e with
    | command w => exact stepsRun_command ih w
    | takeResponse => exact stepsRun_takeResponse ih
    | reset => intro _ _ _ _ hwords _; cases hwords

/-! ### Actions that have no result -/

/-- Actions that are no run, whether or not a response waits before them, make the actions before them none (R191). -/
theorem runOf_append_eq_none {after : List HostEvent} (h : ∀ waiting, runOf waiting after = none)
    (before : List HostEvent) (waiting : Bool) : runOf waiting (before ++ after) = none := by
  induction before generalizing waiting with
  | nil => exact h waiting
  | cons e before ih =>
    cases e with
    | reset => rfl
    | takeResponse => exact ih false
    | command w => exact congrArg (Option.map (w :: ·)) (ih true)

theorem runResult_eq_none {events : List HostEvent} (h : runOf false events = none) (s : State) :
    runResult events s = none := by
  rw [runResult, h]

theorem runResult_eq_some {events : List HostEvent} {s : State} {x : RunResult} :
    runResult events s = some x ↔ ∃ words, runOf false events = some words ∧ runWords words s = some x := by
  unfold runResult
  cases runOf false events <;> simp

/-- Settles O58: an idle core has no response to transfer first, and the actions that are no run have no words. -/
theorem stepsGiveTheResultOfTheRun : Obligations.StepsGiveTheResultOfTheRun := by
  unfold Obligations.StepsGiveTheResultOfTheRun
  refine ⟨fun s x hrsp hx => ?_, fun before after s => ?_, fun before w s => ?_⟩
  · obtain ⟨words, hwords, hrun⟩ := runResult_eq_some.1 hx
    have hgive := stepsRun s.host s words x rfl (by rw [hrsp]; exact hwords) (by rwa [transferResponse_none hrsp])
    rwa [transferResponse_none hrsp] at hgive
  · exact runResult_eq_none (runOf_append_eq_none (fun _ => rfl) before false) s
  · exact runResult_eq_none (runOf_append_eq_none (fun _ => rfl) before false) s

end Sys2Proof.Machine
end
